-- ==== Sys2Proof/Config.lean ====
section
/-! DEFINITION. The orders that the manual leaves open within one event. Each is an opaque constant:
nothing in Lean can tell which order it is, so a statement holds for every order. The first argument
is always `State.freeCount`, which counts the events that consult one of them (log 16). -/

namespace Sys2Proof

/-- R125: at one needle-step, whether the channel of a system (bed index 0 front, 1 back) takes its
apply after the missed catch of the system's pin (true) or before it (false). Log 12. -/
opaque Config.missBeforeApply : Nat → Nat → Fin 4 → Bool

/-- R95, R110: how many of the fault occurrences of a needle-step are taken before the completion of the
same step. Log 13. -/
opaque Config.takenBeforeCompletion : Nat → Nat

/-- R163: the rank at which the n-th occurrence of one event reaches the fault table. Log 14. -/
opaque Config.arrivalRank : Nat → Nat → Nat

/-- R153, R155, R107: whether a course abort corrects the carriage position before it reports the n-th
carrier it loses (true) or after (false). Log 15. -/
opaque Config.correctionBeforeLoss : Nat → Nat → Bool

/-- R36, R163: whether a free store port is granted to a preparer's new request before the fault
occurrences that the same event has still to take (true) or after them (false). Log 31. -/
opaque Config.grantBeforeStop : Nat → Bool

end Sys2Proof
end

