-- ==== Sys2Proof/Word.lean ====
section
/-! DEFINITION. The word types of the link (R187, R195) and of pixel memory (R23). -/

namespace Sys2Proof

/-- One byte as it crosses the link (R187). -/
abbrev Byte := BitVec 8

/-- A two-byte field of a payload, low byte first on the wire (R195). -/
abbrev Half := BitVec 16

/-- One location of pixel memory: sixteen four-bit pixels and a parity bit (R23).
Nibble j of R11 stands in bits 4j..4j+3 of `data`, so byte i of R197 stands in bits 8i..8i+7. -/
structure PixelWord where
  data : BitVec 64
  parity : Bool
deriving DecidableEq, Repr

end Sys2Proof
end

