-- ==== Sys2Proof/Syntax.lean ====
section
/-! DEFINITION. The commands: one constructor of `Instr` for each row of the table. A request carries
its tag and its payload as they cross the link (R187, R195), since the range checks are about those
values. An event carries what the outside brings with it. -/

namespace Sys2Proof

/-- The direction of a pass, a count or a needle-step (00_scope.md, Terms). -/
inductive Direction where
  | right
  | left
deriving DecidableEq, Repr

/-- One of the two encoder lines (R98). -/
inductive EncoderLine where
  | encA
  | encB
deriving DecidableEq, Repr

/-- The levels of the carriage's inputs at one sample (R184), true for high but for the halt line,
which is true while HALT_N is asserted, low (R165). -/
structure InputLevels where
  encA : Bool
  encB : Bool
  home : Bool
  haltAsserted : Bool
  catchSense : Vector Bool 4
deriving DecidableEq, Repr

/-- The Define Zone payload after the zone id (R198). `packed` is byte 15. -/
structure ZonePayload where
  left : Half
  right : Half
  tile : Byte
  anchor : Half
  shift : Half
  row : Half
  repeats : Byte
  colours : Byte
  floatLimit : Byte
  packed : Byte
  map : Vector Byte 16
deriving DecidableEq, Repr

/-- The Edit Zone payload after the zone id (R198): a field is present when its mask bit is set.
`reserved` holds mask bits 12..15. -/
structure EditPayload where
  left : Option Half
  right : Option Half
  tile : Option Byte
  anchor : Option Half
  shift : Option Half
  row : Option Half
  repeats : Option Byte
  colours : Option Byte
  floatLimit : Option Byte
  backing : Option Byte
  mirror : Option Byte
  map : Option (Vector Byte 16)
  reserved : BitVec 4
deriving DecidableEq, Repr

/-- The Configure payload (R195): a field is present when its mask bit is set.
`reserved` holds mask bits 17..23. -/
structure ConfigurePayload where
  bedWidth : Option Half
  systems : Option Byte
  pulses : Option Byte
  homeNeedle : Option Half
  homeTolerance : Option Byte
  pointOffsets : Option (Vector Half 16)
  pinOffsets : Option (Vector Half 8)
  engageLead : Option Byte
  catchWindow : Option Byte
  overshoot : Option Byte
  clearance : Option Byte
  fastLimit : Option Half
  clearLimit : Option Half
  arbiterMode : Option Byte
  urgency : Option Byte
  coilPolarities : Option Half
  pinPolarities : Option Byte
  reserved : BitVec 7
deriving DecidableEq, Repr

/-- One entry of the Queue Course payload (R199): `packed` holds carrier, slot and back flag. -/
structure EntryPayload where
  system : Byte
  zone : Byte
  packed : Byte
deriving DecidableEq, Repr

/-- The Queue Course payload (R199). The entry count is the length of `entries`. -/
structure PlanPayload where
  planTag : Byte
  direction : Byte
  racking : Byte
  endPosition : Half
  entries : List EntryPayload
deriving DecidableEq, Repr

/-- A Restart request: its tag, and the levels of the first sample of the inputs after it, which the part
takes as the previous sample (R98, R181, log 9). -/
structure RestartRequest where
  tag : Byte
  first : InputLevels
deriving DecidableEq, Repr

/-- A type-0 transfer: the whole bytes that followed its type byte, and the levels of the first sample of
the inputs after it, which only a Restart in those bytes takes (R181, log 9). -/
structure WriteTransfer where
  bytes : List Byte
  first : InputLevels
deriving DecidableEq, Repr

/-- The commands, one constructor per row of spec/opcode_table.json. -/
inductive Instr where
  | readStatus (tag flags : Byte)
  | readCourse (tag : Byte)
  | readFault (tag kind : Byte)
  | clearFault (tag kind : Byte)
  | setPolicy (tag : Byte) (flags : Vector Byte 20)
  | configure (tag : Byte) (fields : ConfigurePayload)
  | beginRun (tag : Byte)
  | endRun (tag : Byte)
  | resume (tag : Byte)
  | abortCourse (tag : Byte)
  | forceOutputs (tag target system bed value : Byte)
  | restart (request : RestartRequest)
  | defineTile (tag id : Byte) (width height base : Half)
  | retireTile (tag id : Byte)
  | readTile (tag id : Byte)
  | loadTile (tag id : Byte) (row : Half)
  | tileData (tag : Byte) (bytes : List Byte)
  | readTileWords (tag id : Byte) (row : Half) (word count : Byte)
  | defineZone (tag id : Byte) (fields : ZonePayload)
  | editZone (tag id : Byte) (fields : EditPayload)
  | retireZone (tag id : Byte)
  | readZone (tag id : Byte)
  | mark (tag markTag : Byte)
  | installCarrier (tag id : Byte) (position : Half) (yarn : Byte)
  | placeCarrier (tag id : Byte) (position : Half)
  | removeCarrier (tag id : Byte)
  | readCarrier (tag id : Byte)
  | queueCourse (tag : Byte) (plan : PlanPayload)
  | dropPlans (tag : Byte)
  | transferStart
  | writeRequest (transfer : WriteTransfer)
  /-- The number of whole bytes shifted after the type byte of a type-1 transfer. -/
  | readReply (count : Nat)
  /-- The whole bytes shifted in on a transfer that is neither a write request nor a read reply, its
  type byte first: type 2, or a type of 3..255, or none at all (R185, log 24). -/
  | statusOnly (shiftedIn : List Byte)
  | reset
  | powerOn (levels : InputLevels)
  /-- `upset` marks the bits of a word read that have changed in the store since they were last
  written or read (R23, log 6). -/
  | storeAccessComplete (upset : PixelWord)
  /-- The line that changed, HOME's level in the same sample, and the microseconds since the last
  command that carried a time (log 7, 8). -/
  | encoderCount (line : EncoderLine) (home : Bool) (micros : Nat)
  | illegalTransition (home : Bool)
  | homeEdge
  | clearTimeExpiry
  | haltAssertion
  | haltRelease
  | catchRise (pin : Fin 4)
  | catchFall (pin : Fin 4)
  | carrierMissed (pin : Fin 4)
deriving DecidableEq, Repr

end Sys2Proof
end

