-- ==== Sys2Proof/Machine/State.lean ====
section
/-! DEFINITION. The state of the part, block by block (00_scope.md, Block overview), as plain data, and
its value right after the rise of RESET_N (R179). Outputs and flags that the spec derives from other
state (ATTN, STOP_REQ, the status byte, row pitch, extent, cursor-open flag, a zone's state) are
computed in Flags.lean and Ops.lean from what stands here (log 25). -/

namespace Sys2Proof.Machine

/-! ### Names -/

/-- R69. -/
inductive RunState where
  | setup
  | ready
  | prepared
  | knitting
  | held
deriving DecidableEq, Repr

/-- 00_scope.md, Terms. -/
inductive Bed where
  | front
  | back
deriving DecidableEq, Repr

/-- R15: the stitch of a colour map entry. -/
inductive Stitch where
  | knit
  | tuck
deriving DecidableEq, Repr

/-- What a needle does. -/
inductive Decision where
  | knit
  | tuck
  | miss
deriving DecidableEq, Repr

/-- Section 1.10: which rule made a decision. -/
inductive Origin where
  | pattern
  | tie
  | backing
  | gap
  | fallback
deriving DecidableEq, Repr

/-- R21, R43: the back-bed rule of a zone. -/
inductive Backing where
  | none
  | stripe
  | birdseye
  | ladder
deriving DecidableEq, Repr

/-- R150. -/
inductive EntryStatus where
  | opened
  | fed
  | done
  | unfed
deriving DecidableEq, Repr

/-- R117. -/
inductive PreparerState where
  | idle
  | filling
  | fetching
  | full
  | finished
deriving DecidableEq, Repr

/-- R128: the three states of a coil pair, none of which energises both coils. -/
inductive Coil where
  | off
  | knit
  | tuck
deriving DecidableEq, Repr

/-- R129: the value of a pin's force. -/
inductive PinForce where
  | up
  | down
deriving DecidableEq, Repr

/-- R175, field 14. -/
inductive ArbiterMode where
  | alternating
  | rotating
deriving DecidableEq, Repr

/-- R158: the eleven fault kinds, in the order of their numbers. -/
inductive FaultKind where
  | underrun
  | parity
  | carrierMissed
  | carrierLost
  | homeMismatch
  | overspeed
  | encoder
  | reversal
  | planInvalid
  | planStarved
  | haltInput
deriving DecidableEq, Repr

/-- R194: the result codes, in the order of their numbers. -/
inductive ResultCode where
  | ok
  | badFrame
  | unknown
  | badLength
  | range
  | state
  | noRecord
  | inUse
  | overlap
  | full
  | busy
  | direction
  | order
  | parity
deriving DecidableEq, Repr

/-! ### Geometry (R175) -/

/-- R175: the geometry record. `pointOffset` is indexed system·4 + bed·2 + direction and `pinOffset`
system·2 + direction, with front and RIGHT 0 (R195). `coilInverted` has the order F0K, F0T, .. B3T. -/
structure Geometry where
  bedWidth : Nat
  systems : Nat
  pulses : Nat
  homeNeedle : Nat
  homeTolerance : Nat
  pointOffset : Vector Int 16
  pinOffset : Vector Int 8
  engageLead : Nat
  catchWindow : Nat
  overshoot : Nat
  clearance : Nat
  fastLimit : Nat
  clearLimit : Nat
  arbiterMode : ArbiterMode
  urgency : Nat
  coilInverted : Vector Bool 16
  pinInverted : Vector Bool 4
deriving DecidableEq, Repr

/-! ### Position Tracker (chapter 5) -/

/-- The tracker's items. `sinceStep` is the time since the last needle-step, in microseconds (R108). -/
structure Tracker where
  encA : Bool
  encB : Bool
  home : Bool
  countDirection : Option Direction
  phase : Nat
  position : Int
  referenced : Bool
  correction : Option Int
  lastStep : Option Direction
  interval : Nat
  sinceStep : Nat
  slow : Bool
  overspeedReported : Bool
deriving DecidableEq, Repr

/-! ### Course Engine (chapter 4) -/

/-- R78: one entry of a course plan. -/
structure Entry where
  system : Fin 4
  zone : Fin 32
  carrier : Fin 16
  slot : Fin 8
  back : Bool
deriving DecidableEq, Repr

/-- R78: a course plan. -/
structure Plan where
  tag : Byte
  direction : Direction
  racking : Int
  endPosition : Int
  entries : List Entry
deriving DecidableEq, Repr

/-- What the part keeps with an entry of the prepared or active plan: the ends of its travel interval
and its engage point (R85, R144), its ordinal (R19), its float counter (R16) and, while the plan is
active, its status (R150). -/
structure EntryRun where
  entry : Entry
  rest : Int
  engage : Int
  release : Int
  ordinal : Nat
  floatCount : Nat
  status : Option EntryStatus
deriving DecidableEq, Repr

/-- The prepared or active plan; an entry's index is its place in `runs` (R78). -/
structure Course where
  tag : Byte
  direction : Direction
  racking : Int
  endPosition : Int
  runs : List EntryRun
deriving DecidableEq, Repr

/-- The Course Engine: `course` is the prepared plan in PREPARED and the active plan in KNITTING (R69). -/
structure Engine where
  runState : RunState
  course : Option Course
  queue : List Plan
  expected : Option Direction
  courseNumber : BitVec 16
deriving DecidableEq, Repr

/-! ### Zone Table (chapter 3) -/

/-- R15: one entry of a colour map. -/
structure MapEntry where
  slot : Fin 8
  stitch : Stitch
deriving DecidableEq, Repr

/-- R43: the fields that the machine controller gives a zone. -/
structure ZoneFields where
  left : Nat
  right : Nat
  tile : Fin 64
  anchor : Int
  shift : Int
  mirror : Bool
  row : Nat
  repeats : Nat
  colours : Nat
  map : Vector MapEntry 16
  backing : Backing
  floatLimit : Nat
deriving DecidableEq, Repr

/-- R43: a zone's current part, the given fields and the four derived ones: E, rho, beta and the
served set (bit s for slot s, R195). -/
structure ZonePart where
  given : ZoneFields
  effective : Nat
  repeatIndex : Nat
  backingCounter : BitVec 8
  served : BitVec 8
deriving DecidableEq, Repr

/-- R46: the fields of a pending part, each present or absent. -/
structure PendingFields where
  left : Option Nat
  right : Option Nat
  tile : Option (Fin 64)
  anchor : Option Int
  shift : Option Int
  mirror : Option Bool
  row : Option Nat
  repeats : Option Nat
  colours : Option Nat
  map : Option (Vector MapEntry 16)
  backing : Option Backing
  floatLimit : Option Nat
deriving DecidableEq, Repr

/-- R44, R46: a zone in one of its three states. A PENDING zone has no current part and every pending
field; a LIVE zone may have pending fields; a RETIRING zone is one whose retire flag is set. -/
inductive Zone where
  | pending (fields : ZoneFields)
  | live (current : ZonePart) (pending : Option PendingFields)
  | retiring (current : ZonePart) (pending : PendingFields)
deriving DecidableEq, Repr

/-- The zone table and its mark (R66). -/
structure ZoneTable where
  places : Vector (Option Zone) 32
  pendingMark : Option Byte
  lastMark : Byte
deriving DecidableEq, Repr

/-! ### Tile Store (chapter 2) -/

/-- R25: a tile record; its row pitch, extent and cursor-open flag are computed. -/
structure Tile where
  width : Nat
  height : Nat
  base : Nat
  references : Nat
deriving DecidableEq, Repr

/-- R30: the open load cursor. -/
structure Cursor where
  tile : Fin 64
  next : Nat
deriving DecidableEq, Repr

/-- R36: who may be granted the store port. -/
inductive Requester where
  | front (system : Fin 4)
  | loader
deriving DecidableEq, Repr

/-- R35: the access in flight. The last two are accesses granted before a Restart, which run to their
completion for nobody (R41). -/
inductive Access where
  | clear (word : Nat)
  | fetch (system : Fin 4) (word : Nat)
  | loadWrite (word : Nat) (data : BitVec 64)
  | readBack (word : Nat)
  | orphanRead (word : Nat)
  | orphanWrite (word : Nat) (data : BitVec 64)
deriving DecidableEq, Repr

/-- The Tile Store. `memory` lists the words that differ from what an unlisted word reads as, by
rising number (log 5). `buffer` holds each word with its destination, oldest first (R32). -/
structure TileStore where
  memory : List (Nat × PixelWord)
  tiles : Vector (Option Tile) 64
  cursor : Option Cursor
  buffer : List (Nat × BitVec 64)
  inFlight : Option Access
  lastGranted : Requester
  lastPreparer : Fin 4
deriving DecidableEq, Repr

/-! ### Selection Channels (chapter 6) -/

/-- R115: a span by its start and end needle in pass order. -/
structure Span where
  first : Nat
  last : Nat
deriving DecidableEq, Repr

/-- R113: the needle the preparer decides next. -/
inductive NextNeedle where
  | none
  | at (needle : Nat)
  | past
deriving DecidableEq, Repr

/-- R122: one entry of a decision queue. -/
structure Queued where
  needle : Nat
  decision : Decision
  origin : Origin
  entry : Option Nat
deriving DecidableEq, Repr

/-- R119: the fetch in flight. -/
structure Fetch where
  word : Nat
  start : Nat
deriving DecidableEq, Repr

/-- R113: the state of one channel. -/
structure Channel where
  span : Option Span
  preparer : PreparerState
  next : NextNeedle
  pendingRead : Option Nat
  fetch : Option Fetch
  stale : Bool
  queue : List Queued
  coil : Coil
  force : Option Coil
deriving DecidableEq, Repr

/-! ### Yarn Carriers (chapter 7) -/

/-- R135. -/
inductive CarrierState where
  | absent
  | resting (position : Int)
  | carried (pin : Fin 4) (entry : Nat)
  | lost
deriving DecidableEq, Repr

/-- R135: a carrier record. -/
structure Carrier where
  state : CarrierState
  yarn : Byte
deriving DecidableEq, Repr

/-- R142: a pin's record, with the index of the entry it serves and the direction of the course. -/
inductive PinState where
  | up
  | catching (carrier : Fin 16) (stepsLeft : Nat) (entry : Nat) (direction : Direction)
  | holding (carrier : Fin 16) (entry : Nat) (direction : Direction)
deriving DecidableEq, Repr

/-- A pin, its force (R129) and the last sampled level of its catch sense (R146). -/
structure Pin where
  state : PinState
  force : Option PinForce
  sense : Bool
deriving DecidableEq, Repr

/-! ### Fault and Attention block (chapter 8) -/

/-- R161: the context of an occurrence. -/
structure Context where
  courseNumber : BitVec 16
  position : Int
  system : Option (Fin 4)
  bed : Option Bed
  needle : Option Nat
  planTag : Option Byte
  detail : Nat
deriving DecidableEq, Repr

/-- R159: a present fault record. -/
structure FaultRecord where
  stopped : Bool
  count : Nat
  context : Context
deriving DecidableEq, Repr

/-- R164: the policy, by kind number and in the order COURSE_DONE, MARK_DONE, LOAD_EMPTY. -/
structure Policy where
  stopEnable : Vector Bool 6
  faultAttention : Vector Bool 11
  eventAttention : Vector Bool 3
deriving DecidableEq, Repr

/-- The block's state; an absent record is `none` (R159). -/
structure FaultBlock where
  records : Vector (Option FaultRecord) 11
  policy : Policy
  courseDone : Bool
  markDone : Bool
  loadEmpty : Bool
  haltAsserted : Bool
deriving DecidableEq, Repr

/-! ### Link Port (chapter 10) -/

/-- R187, R194: a reply before its length and CRC. -/
structure Reply where
  tag : Byte
  code : ResultCode
  previousLost : Bool
  payload : List Byte
deriving DecidableEq, Repr

/-- R190, R192: the reply slot's reply and whether it was completely read. -/
structure ReplySlot where
  reply : Reply
  read : Bool
deriving DecidableEq, Repr

/-- R189, R34: the request that stays in the request slot, Read Tile Words: its tag, whether the reply
it discarded was unread (R192), the words not yet asked for and the words read with their outcome. -/
structure ReadBack where
  tag : Byte
  previousLost : Bool
  waiting : List Nat
  words : List (BitVec 64 × Bool)
deriving DecidableEq, Repr

/-- R185: the status byte and the reply sampled at the fall of CS_N. -/
structure Transfer where
  status : Byte
  reply : Option Reply
deriving DecidableEq, Repr

/-- The Link Port. EXECUTING and REPLY_READY are computed (R186). `shifted` is the model's own record
of the whole bytes that the last transfer with a type byte shifted out (log 24). -/
structure Link where
  ready : Bool
  request : Option ReadBack
  restarting : Bool
  reply : Option ReplySlot
  dropped : Bool
  transfer : Option Transfer
  shifted : List Byte
deriving DecidableEq, Repr

/-! ### The whole part -/

/-- The part. `pending` is the queue of commands and `freeCount` the counter that the open orders of
Config are applied to: these two are the model's own (log 2, 16). -/
structure State where
  inReset : Bool
  geometry : Geometry
  tracker : Tracker
  engine : Engine
  zones : ZoneTable
  store : TileStore
  front : Vector Channel 4
  back : Vector Channel 4
  carriers : Vector Carrier 16
  pins : Vector Pin 4
  faults : FaultBlock
  link : Link
  freeCount : Nat
  pending : List Instr
deriving DecidableEq, Repr

/-- Why a command stops the machine. -/
inductive Fault where
  /-- Raised by STORE_ACCESS_COMPLETE when the access in flight names a word outside 0..65535. No
  such word exists (section 2.1), and no run makes such an access (R12, R26). Safe (log 27). -/
  | noSuchWord (word : Nat)
deriving DecidableEq, Repr

/-- Why a command is not carried out at all. -/
inductive Refusal where
  /-- Raised by `exec` for a command that has no meaning yet. Safe. -/
  | notModelled (mnemonic : String)
deriving DecidableEq, Repr

/-- The outcomes of a command. -/
abbrev Outcome := Host.Outcome State Fault Refusal

/-! ### Power-on values -/

/-- R175: the power-on values of the geometry record. -/
def Geometry.reset : Geometry where
  bedWidth := 512
  systems := 2
  pulses := 4
  homeNeedle := 0
  homeTolerance := 1
  pointOffset := Vector.replicate 16 0
  pinOffset := Vector.replicate 8 0
  engageLead := 2
  catchWindow := 4
  overshoot := 4
  clearance := 2
  fastLimit := 600
  clearLimit := 700
  arbiterMode := .alternating
  urgency := 8
  coilInverted := Vector.replicate 16 false
  pinInverted := Vector.replicate 4 false

/-- R112, for a first sample that reads these three levels. -/
def Tracker.reset (encA encB home : Bool) : Tracker where
  encA := encA
  encB := encB
  home := home
  countDirection := none
  phase := 0
  position := 0
  referenced := false
  correction := none
  lastStep := none
  interval := 65535
  sinceStep := 0
  slow := false
  overspeedReported := false

/-- R97. -/
def Engine.reset : Engine where
  runState := .setup
  course := none
  queue := []
  expected := none
  courseNumber := 0

/-- R68. -/
def ZoneTable.reset : ZoneTable where
  places := Vector.replicate 32 none
  pendingMark := none
  lastMark := 0

/-- R42, with the write of word 0 of the memory clear granted (R24, R179). -/
def TileStore.reset : TileStore where
  memory := []
  tiles := Vector.replicate 64 none
  cursor := none
  buffer := []
  inFlight := some (.clear 0)
  lastGranted := .loader
  lastPreparer := 3

/-- R134. -/
def Channel.reset : Channel where
  span := none
  preparer := .idle
  next := .none
  pendingRead := none
  fetch := none
  stale := false
  queue := []
  coil := .off
  force := none

/-- R157. -/
def Carrier.reset : Carrier where
  state := .absent
  yarn := 0

/-- R157, for a first sample that reads this level of the catch sense. -/
def Pin.reset (sense : Bool) : Pin where
  state := .up
  force := none
  sense := sense

/-- R164: every enable set. -/
def Policy.reset : Policy where
  stopEnable := Vector.replicate 6 true
  faultAttention := Vector.replicate 11 true
  eventAttention := Vector.replicate 3 true

/-- R174, for a first sample that reads this level of HALT_N. -/
def FaultBlock.reset (haltAsserted : Bool) : FaultBlock where
  records := Vector.replicate 11 none
  policy := Policy.reset
  courseDone := false
  markDone := false
  loadEmpty := false
  haltAsserted := haltAsserted

/-- R201. -/
def Link.reset : Link where
  ready := false
  request := none
  restarting := false
  reply := none
  dropped := false
  transfer := none
  shifted := []

/-- The part right after the rise of RESET_N (R179), the memory clear begun and no command waiting.
The first sample of the inputs is not the part's to fix: the levels here (every line low, HALT_N
released) are log 3's, DESIGN CHOICE, unsafe; POWER_ON carries its own. -/
def State.reset : State where
  inReset := false
  geometry := Geometry.reset
  tracker := Tracker.reset false false false
  engine := Engine.reset
  zones := ZoneTable.reset
  store := TileStore.reset
  front := Vector.replicate 4 Channel.reset
  back := Vector.replicate 4 Channel.reset
  carriers := Vector.replicate 16 Carrier.reset
  pins := Vector.replicate 4 (Pin.reset false)
  faults := FaultBlock.reset false
  link := Link.reset
  freeCount := 0
  pending := []

/-! ### Updates, one block at a time -/

/-- Replace the position tracker. -/
def State.withTracker (s : State) (t : Tracker) : State := { s with tracker := t }
/-- Replace the geometry record. -/
def State.withGeometry (s : State) (g : Geometry) : State := { s with geometry := g }
/-- Replace the course engine. -/
def State.withEngine (s : State) (e : Engine) : State := { s with engine := e }
/-- Replace the zone table. -/
def State.withZones (s : State) (z : ZoneTable) : State := { s with zones := z }
/-- Replace the tile store. -/
def State.withStore (s : State) (t : TileStore) : State := { s with store := t }
/-- Replace the front channels. -/
def State.withFront (s : State) (v : Vector Channel 4) : State := { s with front := v }
/-- Replace the back channels. -/
def State.withBack (s : State) (v : Vector Channel 4) : State := { s with back := v }
/-- Replace the carrier records. -/
def State.withCarriers (s : State) (v : Vector Carrier 16) : State := { s with carriers := v }
/-- Replace the pins. -/
def State.withPins (s : State) (v : Vector Pin 4) : State := { s with pins := v }
/-- Replace the fault and attention block. -/
def State.withFaults (s : State) (f : FaultBlock) : State := { s with faults := f }
/-- Replace the link port. -/
def State.withLink (s : State) (l : Link) : State := { s with link := l }
/-- Advance the counter of the open orders. -/
def State.bumpFree (s : State) : State := { s with freeCount := s.freeCount + 1 }

end Sys2Proof.Machine
end

