-- ==== Sys2Proof/Machine/Memory.lean ====
section
/-! DEFINITION. Pixel memory and its parity (section 2.1). A memory is the list of the words that
differ from the blank word, by strictly rising number; a word not listed reads as blank (log 5). -/

namespace Sys2Proof.Machine

/-- A pixel memory in its canonical form. -/
abbrev Memory := List (Nat × PixelWord)

/-- R24: sixteen zero pixels and a parity bit of 0. What an unlisted word reads as. -/
def blankWord : PixelWord := ⟨0, false⟩

/-- The number of words of pixel memory (section 2.1). -/
def memorySize : Nat := 65536

/-- The canonical form: strictly rising word numbers, and no blank word listed. -/
def Memory.wf (m : Memory) : Bool :=
  decide (m.Pairwise (fun a b => a.1 < b.1)) && m.all (fun c => decide (c.2 ≠ blankWord))

/-- The word that stands at a number. -/
def readWord : Memory → Nat → PixelWord
  | [], _ => blankWord
  | (b, v) :: rest, a => if a = b then v else readWord rest a

/-- Store a word at a number, keeping the canonical form. -/
def storeWord : Memory → Nat → PixelWord → Memory
  | [], a, w => if w = blankWord then [] else [(a, w)]
  | (b, v) :: rest, a, w =>
    if a < b then
      if w = blankWord then (b, v) :: rest else (a, w) :: (b, v) :: rest
    else if a = b then
      if w = blankWord then rest else (a, w) :: rest
    else (b, v) :: storeWord rest a w

/-- Whether the data bits hold an odd number of ones. -/
def oddOnes (d : BitVec 64) : Bool :=
  (List.range 64).foldl (fun p i => p ^^ d.getLsbD i) false

/-- R23: the parity bit is chosen so that the 65 bits hold an even number of ones. -/
def goodWord (d : BitVec 64) : PixelWord := ⟨d, oddOnes d⟩

/-- R23: the check passes when the 65 bits hold an even number of ones. -/
def parityPasses (w : PixelWord) : Bool := w.parity == oddOnes w.data

/-- A stored word whose marked bits have changed (R23, log 6). -/
def upsetWord (w u : PixelWord) : PixelWord := ⟨w.data ^^^ u.data, w.parity ^^ u.parity⟩

end Sys2Proof.Machine
end

