-- ==== Sys2Proof/WellFormed.lean ====
section
/-! DEFINITION. Which commands can occur: the two payloads of variable length have lengths that the
catalogue allows (R196), and a quiet transfer has no type byte of a transfer with an effect (R185). Every
other operand has its width in its type. -/

namespace Sys2Proof

/-- R196: a Tile Data payload that the Link Port lets through has 1 to 72 bytes. -/
def tileDataFits (bytes : List Byte) : Bool :=
  decide (1 ≤ bytes.length) && decide (bytes.length ≤ 72)

/-- R196: a payload holds at most 72 bytes, so no entry count above 22 can agree with its length. -/
def entriesFit (plan : PlanPayload) : Bool :=
  decide (plan.entries.length ≤ 22)

/-- R185: the bytes shifted in begin with no type byte of a write request or a read reply. -/
def quietTransfer (shiftedIn : List Byte) : Bool :=
  match shiftedIn with
  | [] => true
  | type :: _ => decide (type ≠ 0) && decide (type ≠ 1)

/-- A command that can occur. -/
def Instr.wf : Instr → Bool
  | .tileData _ bytes => tileDataFits bytes
  | .queueCourse _ plan => entriesFit plan
  | .statusOnly shiftedIn => quietTransfer shiftedIn
  | .readStatus _ _ | .readCourse _ | .readFault _ _ | .clearFault _ _ | .setPolicy _ _
  | .configure _ _ | .beginRun _ | .endRun _ | .resume _ | .abortCourse _
  | .forceOutputs _ _ _ _ _ | .restart _ | .defineTile _ _ _ _ _ | .retireTile _ _
  | .readTile _ _ | .loadTile _ _ _ | .readTileWords _ _ _ _ _ | .defineZone _ _ _
  | .editZone _ _ _ | .retireZone _ _ | .readZone _ _ | .mark _ _ | .installCarrier _ _ _ _
  | .placeCarrier _ _ _ | .removeCarrier _ _ | .readCarrier _ _ | .dropPlans _ | .transferStart
  | .writeRequest _ | .readReply _ | .reset | .powerOn _
  | .storeAccessComplete _ | .encoderCount _ _ _ | .illegalTransition _ | .homeEdge
  | .clearTimeExpiry | .haltAssertion | .haltRelease | .catchRise _ | .catchFall _
  | .carrierMissed _ => true

end Sys2Proof
end

