-- ==== Sys2Proof/Decode.lean ====
section
/-! DEFINITION. The table gives no row any bits, so no word of it spells a command. What the part does
decode is the request frame (R187, R188, R195 to R199): read here, and written by the encoder after it. -/

namespace Sys2Proof

/-- The table of commands gives no row any bits: no word spells a command. -/
def decodeTableWord (_nbits _w : Nat) : Option Instr := none

/-! ### The CRC (R187) -/

/-- One of the eight shifts of R187. -/
def crcShift (r : BitVec 16) : BitVec 16 :=
  if r.getLsbD 15 then (r <<< 1) ^^^ 0x1021#16 else r <<< 1

/-- R187: the byte enters the high half of the register by exclusive-or, then eight shifts follow. -/
def crcByte (r : BitVec 16) (b : Byte) : BitVec 16 :=
  (crcShift ∘ crcShift ∘ crcShift ∘ crcShift ∘ crcShift ∘ crcShift ∘ crcShift ∘ crcShift)
    (r ^^^ (b ++ 0#8 : BitVec 16))

/-- R187: the CRC-16 of a run of bytes, from the register value 0xFFFF. -/
def crc16 (bytes : List Byte) : BitVec 16 :=
  bytes.foldl crcByte 0xFFFF#16

/-- R187: the CRC is sent high byte first. -/
def crcBytes (bytes : List Byte) : List Byte :=
  [(crc16 bytes).extractLsb' 8 8, (crc16 bytes).extractLsb' 0 8]

/-! ### Fields on the wire (R195) -/

/-- R195: two bytes, low byte first. -/
def halfOfBytes (low high : Byte) : Half := (high ++ low : BitVec 16)

/-- R195: a two-byte field as it is sent. -/
def bytesOfHalf (h : Half) : List Byte := [h.extractLsb' 0 8, h.extractLsb' 8 8]

/-- A byte from its bits, bit 0 first. -/
def byteOfBits (b0 b1 b2 b3 b4 b5 b6 b7 : Bool) : Byte :=
  (BitVec.ofBool b7 ++ BitVec.ofBool b6 ++ BitVec.ofBool b5 ++ BitVec.ofBool b4 ++
    BitVec.ofBool b3 ++ BitVec.ofBool b2 ++ BitVec.ofBool b1 ++ BitVec.ofBool b0 : BitVec 8)

/-- Read a one-byte field when its mask bit is set. -/
def optByte (given : Bool) (l : List Byte) : Option (Option Byte × List Byte) :=
  if given then
    match l with
    | b :: rest => some (some b, rest)
    | [] => none
  else some (none, l)

/-- Read a two-byte field when its mask bit is set. -/
def optHalf (given : Bool) (l : List Byte) : Option (Option Half × List Byte) :=
  if given then
    match l with
    | lo :: hi :: rest => some (some (halfOfBytes lo hi), rest)
    | _ => none
  else some (none, l)

/-- Read n bytes as a group. -/
def takeBytes (n : Nat) (l : List Byte) : Option (Vector Byte n × List Byte) :=
  if h : (l.take n).length = n then some (⟨(l.take n).toArray, by simpa using h⟩, l.drop n) else none

/-- The two-byte values of a run of bytes. -/
def halvesOf : List Byte → List Half
  | lo :: hi :: rest => halfOfBytes lo hi :: halvesOf rest
  | _ => []

/-- Read n two-byte values as a group. -/
def takeHalves (n : Nat) (l : List Byte) : Option (Vector Half n × List Byte) :=
  if h : (halvesOf (l.take (2 * n))).length = n then
    some (⟨(halvesOf (l.take (2 * n))).toArray, by simpa using h⟩, l.drop (2 * n))
  else none

/-- Read a group of n bytes when its mask bit is set. -/
def optBytes (n : Nat) (given : Bool) (l : List Byte) : Option (Option (Vector Byte n) × List Byte) :=
  if given then (takeBytes n l).map (fun p => (some p.1, p.2)) else some (none, l)

/-- Read a group of n two-byte values when its mask bit is set. -/
def optHalves (n : Nat) (given : Bool) (l : List Byte) : Option (Option (Vector Half n) × List Byte) :=
  if given then (takeHalves n l).map (fun p => (some p.1, p.2)) else some (none, l)

/-! ### Reading a payload (R196, R198, R199) -/

/-- R195: the Configure payload, a mask of three bytes and the given fields in field order. -/
def decodeConfigure : List Byte → Option ConfigurePayload
  | m0 :: m1 :: m2 :: l0 => do
    let (bedWidth, l) ← optHalf (m0.getLsbD 0) l0
    let (systems, l) ← optByte (m0.getLsbD 1) l
    let (pulses, l) ← optByte (m0.getLsbD 2) l
    let (homeNeedle, l) ← optHalf (m0.getLsbD 3) l
    let (homeTolerance, l) ← optByte (m0.getLsbD 4) l
    let (pointOffsets, l) ← optHalves 16 (m0.getLsbD 5) l
    let (pinOffsets, l) ← optHalves 8 (m0.getLsbD 6) l
    let (engageLead, l) ← optByte (m0.getLsbD 7) l
    let (catchWindow, l) ← optByte (m1.getLsbD 0) l
    let (overshoot, l) ← optByte (m1.getLsbD 1) l
    let (clearance, l) ← optByte (m1.getLsbD 2) l
    let (fastLimit, l) ← optHalf (m1.getLsbD 3) l
    let (clearLimit, l) ← optHalf (m1.getLsbD 4) l
    let (arbiterMode, l) ← optByte (m1.getLsbD 5) l
    let (urgency, l) ← optByte (m1.getLsbD 6) l
    let (coilPolarities, l) ← optHalf (m1.getLsbD 7) l
    let (pinPolarities, l) ← optByte (m2.getLsbD 0) l
    if l.isEmpty then
      some { bedWidth, systems, pulses, homeNeedle, homeTolerance, pointOffsets, pinOffsets,
             engageLead, catchWindow, overshoot, clearance, fastLimit, clearLimit, arbiterMode,
             urgency, coilPolarities, pinPolarities, reserved := m2.extractLsb' 1 7 }
    else none
  | _ => none

/-- R198: the Define Zone payload after the zone id. -/
def decodeZone : List Byte → Option ZonePayload
  | l0 :: l1 :: r0 :: r1 :: t :: a0 :: a1 :: s0 :: s1 :: w0 :: w1 :: m :: k :: f :: p :: rest =>
    match takeBytes 16 rest with
    | some (map, []) =>
      some { left := halfOfBytes l0 l1, right := halfOfBytes r0 r1, tile := t,
             anchor := halfOfBytes a0 a1, shift := halfOfBytes s0 s1, row := halfOfBytes w0 w1,
             repeats := m, colours := k, floatLimit := f, packed := p, map := map }
    | _ => none
  | _ => none

/-- R198: the Edit Zone payload after the zone id, a mask of two bytes and the given fields. -/
def decodeEdit : List Byte → Option EditPayload
  | m0 :: m1 :: l0 => do
    let (left, l) ← optHalf (m0.getLsbD 0) l0
    let (right, l) ← optHalf (m0.getLsbD 1) l
    let (tile, l) ← optByte (m0.getLsbD 2) l
    let (anchor, l) ← optHalf (m0.getLsbD 3) l
    let (shift, l) ← optHalf (m0.getLsbD 4) l
    let (row, l) ← optHalf (m0.getLsbD 5) l
    let (repeats, l) ← optByte (m0.getLsbD 6) l
    let (colours, l) ← optByte (m0.getLsbD 7) l
    let (floatLimit, l) ← optByte (m1.getLsbD 0) l
    let (backing, l) ← optByte (m1.getLsbD 1) l
    let (mirror, l) ← optByte (m1.getLsbD 2) l
    let (map, l) ← optBytes 16 (m1.getLsbD 3) l
    if l.isEmpty then
      some { left, right, tile, anchor, shift, row, repeats, colours, floatLimit, backing, mirror,
             map, reserved := m1.extractLsb' 4 4 }
    else none
  | _ => none

/-- R199: the entries of a Queue Course payload, three bytes each. -/
def decodeEntries : List Byte → Option (List EntryPayload)
  | [] => some []
  | s :: z :: p :: rest => (decodeEntries rest).map (⟨s, z, p⟩ :: ·)
  | _ => none

/-- R199: the Queue Course payload, whose length must agree with its entry count (R196). -/
def decodePlan : List Byte → Option PlanPayload
  | t :: d :: q :: e0 :: e1 :: n :: rest =>
    match decodeEntries rest with
    | some es => if es.length = n.toNat then some ⟨t, d, q, halfOfBytes e0 e1, es⟩ else none
    | none => none
  | _ => none

/-- R196: the request codes of the catalogue. -/
def catalogue : List Nat :=
  [0x01, 0x02, 0x03, 0x04, 0x05, 0x10, 0x11, 0x12, 0x13, 0x14, 0x15, 0x1F, 0x20, 0x21, 0x22, 0x23,
   0x24, 0x25, 0x30, 0x31, 0x32, 0x33, 0x34, 0x40, 0x41, 0x42, 0x43, 0x50, 0x51]

/-- R196: the request a catalogue code and a payload spell, or none where the payload's length is
none the catalogue allows for the code. A Restart takes the levels of the first sample after it. -/
def decodePayload (first : InputLevels) (code : Nat) (tag : Byte) (p : List Byte) : Option Instr :=
  match code with
  | 0x01 => match p with | [a] => some (.readStatus tag a) | _ => none
  | 0x02 => match p with | [] => some (.readCourse tag) | _ => none
  | 0x03 => match p with | [a] => some (.readFault tag a) | _ => none
  | 0x04 => match p with | [a] => some (.clearFault tag a) | _ => none
  | 0x05 => match takeBytes 20 p with | some (v, []) => some (.setPolicy tag v) | _ => none
  | 0x10 => (decodeConfigure p).map (.configure tag)
  | 0x11 => match p with | [] => some (.beginRun tag) | _ => none
  | 0x12 => match p with | [] => some (.endRun tag) | _ => none
  | 0x13 => match p with | [] => some (.resume tag) | _ => none
  | 0x14 => match p with | [] => some (.abortCourse tag) | _ => none
  | 0x15 => match p with | [a, b, c, d] => some (.forceOutputs tag a b c d) | _ => none
  | 0x1F => match p with | [] => some (.restart ⟨tag, first⟩) | _ => none
  | 0x20 => match p with
    | [a, b, c, d, e, f, g] =>
      some (.defineTile tag a (halfOfBytes b c) (halfOfBytes d e) (halfOfBytes f g))
    | _ => none
  | 0x21 => match p with | [a, b, c] => some (.loadTile tag a (halfOfBytes b c)) | _ => none
  | 0x22 => if tileDataFits p then some (.tileData tag p) else none
  | 0x23 => match p with
    | [a, b, c, d, e] => some (.readTileWords tag a (halfOfBytes b c) d e)
    | _ => none
  | 0x24 => match p with | [a] => some (.readTile tag a) | _ => none
  | 0x25 => match p with | [a] => some (.retireTile tag a) | _ => none
  | 0x30 => match p with | a :: rest => (decodeZone rest).map (.defineZone tag a) | _ => none
  | 0x31 => match p with | a :: rest => (decodeEdit rest).map (.editZone tag a) | _ => none
  | 0x32 => match p with | [a] => some (.retireZone tag a) | _ => none
  | 0x33 => match p with | [a] => some (.readZone tag a) | _ => none
  | 0x34 => match p with | [a] => some (.mark tag a) | _ => none
  | 0x40 => match p with
    | [a, b, c, d] => some (.installCarrier tag a (halfOfBytes b c) d)
    | _ => none
  | 0x41 => match p with | [a, b, c] => some (.placeCarrier tag a (halfOfBytes b c)) | _ => none
  | 0x42 => match p with | [a] => some (.removeCarrier tag a) | _ => none
  | 0x43 => match p with | [a] => some (.readCarrier tag a) | _ => none
  | 0x50 => (decodePlan p).map (.queueCourse tag)
  | 0x51 => match p with | [] => some (.dropPlans tag) | _ => none
  | _ => none

/-- R188: what the checks of a received frame find. The tag is the one the reply echoes. -/
inductive FrameVerdict where
  | badFrame (tag : Byte)
  | unknown (tag : Byte)
  | badLength (tag : Byte)
  | request (i : Instr)
deriving DecidableEq, Repr

/-- R188: the frame checks, in their order, over the bytes that followed the type byte, with the levels
of the first sample after the frame. A BAD_FRAME
reply echoes the byte at the tag position, or 0 when fewer than three bytes arrived. -/
def readFrame (first : InputLevels) (bytes : List Byte) : FrameVerdict :=
  match bytes with
  | len :: code :: tag :: rest =>
    if 4 ≤ len.toNat ∧ len.toNat ≤ 76 ∧ rest.length + 2 = len.toNat ∧
        rest.drop (len.toNat - 4) = crcBytes (len :: code :: tag :: rest.take (len.toNat - 4)) then
      if code.toNat ∈ catalogue then
        match decodePayload first code.toNat tag (rest.take (len.toNat - 4)) with
        | some i => .request i
        | none => .badLength tag
      else .unknown tag
    else .badFrame tag
  | _ => .badFrame 0

/-! ### Writing a frame -/

/-- A request frame before its length and CRC (R187). -/
structure RequestBody where
  code : Byte
  tag : Byte
  payload : List Byte
deriving DecidableEq, Repr

/-- The bytes of a one-byte field that may be absent. -/
def bytesOfOptByte (b : Option Byte) : List Byte := b.toList

/-- The bytes of a two-byte field that may be absent. -/
def bytesOfOptHalf (h : Option Half) : List Byte :=
  match h with
  | some v => bytesOfHalf v
  | none => []

/-- The bytes of a group of bytes that may be absent. -/
def bytesOfOptBytes {n : Nat} (v : Option (Vector Byte n)) : List Byte :=
  match v with
  | some v => v.toList
  | none => []

/-- The bytes of a group of two-byte values that may be absent. -/
def bytesOfOptHalves {n : Nat} (v : Option (Vector Half n)) : List Byte :=
  match v with
  | some v => v.toList.flatMap bytesOfHalf
  | none => []

/-- R195: a Configure payload as it is sent. -/
def encodeConfigure (f : ConfigurePayload) : List Byte :=
  byteOfBits f.bedWidth.isSome f.systems.isSome f.pulses.isSome f.homeNeedle.isSome
    f.homeTolerance.isSome f.pointOffsets.isSome f.pinOffsets.isSome f.engageLead.isSome ::
  byteOfBits f.catchWindow.isSome f.overshoot.isSome f.clearance.isSome f.fastLimit.isSome
    f.clearLimit.isSome f.arbiterMode.isSome f.urgency.isSome f.coilPolarities.isSome ::
  (f.reserved ++ BitVec.ofBool f.pinPolarities.isSome : BitVec 8) ::
  (bytesOfOptHalf f.bedWidth ++ bytesOfOptByte f.systems ++ bytesOfOptByte f.pulses ++
   bytesOfOptHalf f.homeNeedle ++ bytesOfOptByte f.homeTolerance ++
   bytesOfOptHalves f.pointOffsets ++ bytesOfOptHalves f.pinOffsets ++
   bytesOfOptByte f.engageLead ++ bytesOfOptByte f.catchWindow ++ bytesOfOptByte f.overshoot ++
   bytesOfOptByte f.clearance ++ bytesOfOptHalf f.fastLimit ++ bytesOfOptHalf f.clearLimit ++
   bytesOfOptByte f.arbiterMode ++ bytesOfOptByte f.urgency ++ bytesOfOptHalf f.coilPolarities ++
   bytesOfOptByte f.pinPolarities)

/-- R198: a Define Zone payload after the zone id as it is sent. -/
def encodeZone (z : ZonePayload) : List Byte :=
  bytesOfHalf z.left ++ bytesOfHalf z.right ++ [z.tile] ++ bytesOfHalf z.anchor ++
  bytesOfHalf z.shift ++ bytesOfHalf z.row ++
  [z.repeats, z.colours, z.floatLimit, z.packed] ++ z.map.toList

/-- R198: an Edit Zone payload after the zone id as it is sent. -/
def encodeEdit (f : EditPayload) : List Byte :=
  byteOfBits f.left.isSome f.right.isSome f.tile.isSome f.anchor.isSome f.shift.isSome
    f.row.isSome f.repeats.isSome f.colours.isSome ::
  (f.reserved ++ BitVec.ofBool f.map.isSome ++ BitVec.ofBool f.mirror.isSome ++
    BitVec.ofBool f.backing.isSome ++ BitVec.ofBool f.floatLimit.isSome : BitVec 8) ::
  (bytesOfOptHalf f.left ++ bytesOfOptHalf f.right ++ bytesOfOptByte f.tile ++
   bytesOfOptHalf f.anchor ++ bytesOfOptHalf f.shift ++ bytesOfOptHalf f.row ++
   bytesOfOptByte f.repeats ++ bytesOfOptByte f.colours ++ bytesOfOptByte f.floatLimit ++
   bytesOfOptByte f.backing ++ bytesOfOptByte f.mirror ++ bytesOfOptBytes f.map)

/-- R199: a Queue Course payload as it is sent. -/
def encodePlan (p : PlanPayload) : List Byte :=
  [p.planTag, p.direction, p.racking] ++ bytesOfHalf p.endPosition ++
  [BitVec.ofNat 8 p.entries.length] ++
  p.entries.flatMap (fun e => [e.system, e.zone, e.packed])

/-- The frame body of a request, none for a command that is no request (R196). -/
def requestBody : Instr → Option RequestBody
  | .readStatus tag a => some ⟨0x01, tag, [a]⟩
  | .readCourse tag => some ⟨0x02, tag, []⟩
  | .readFault tag a => some ⟨0x03, tag, [a]⟩
  | .clearFault tag a => some ⟨0x04, tag, [a]⟩
  | .setPolicy tag v => some ⟨0x05, tag, v.toList⟩
  | .configure tag f => some ⟨0x10, tag, encodeConfigure f⟩
  | .beginRun tag => some ⟨0x11, tag, []⟩
  | .endRun tag => some ⟨0x12, tag, []⟩
  | .resume tag => some ⟨0x13, tag, []⟩
  | .abortCourse tag => some ⟨0x14, tag, []⟩
  | .forceOutputs tag a b c d => some ⟨0x15, tag, [a, b, c, d]⟩
  | .restart r => some ⟨0x1F, r.tag, []⟩
  | .defineTile tag a w h b =>
    some ⟨0x20, tag, a :: (bytesOfHalf w ++ bytesOfHalf h ++ bytesOfHalf b)⟩
  | .loadTile tag a r => some ⟨0x21, tag, a :: bytesOfHalf r⟩
  | .tileData tag l => some ⟨0x22, tag, l⟩
  | .readTileWords tag a r w n => some ⟨0x23, tag, a :: (bytesOfHalf r ++ [w, n])⟩
  | .readTile tag a => some ⟨0x24, tag, [a]⟩
  | .retireTile tag a => some ⟨0x25, tag, [a]⟩
  | .defineZone tag a z => some ⟨0x30, tag, a :: encodeZone z⟩
  | .editZone tag a f => some ⟨0x31, tag, a :: encodeEdit f⟩
  | .retireZone tag a => some ⟨0x32, tag, [a]⟩
  | .readZone tag a => some ⟨0x33, tag, [a]⟩
  | .mark tag a => some ⟨0x34, tag, [a]⟩
  | .installCarrier tag a x y => some ⟨0x40, tag, a :: (bytesOfHalf x ++ [y])⟩
  | .placeCarrier tag a x => some ⟨0x41, tag, a :: bytesOfHalf x⟩
  | .removeCarrier tag a => some ⟨0x42, tag, [a]⟩
  | .readCarrier tag a => some ⟨0x43, tag, [a]⟩
  | .queueCourse tag p => some ⟨0x50, tag, encodePlan p⟩
  | .dropPlans tag => some ⟨0x51, tag, []⟩
  | .transferStart | .writeRequest _ | .readReply _ | .statusOnly _ | .reset | .powerOn _
  | .storeAccessComplete _ | .encoderCount _ _ _ | .illegalTransition _ | .homeEdge
  | .clearTimeExpiry | .haltAssertion | .haltRelease | .catchRise _ | .catchFall _
  | .carrierMissed _ => none

/-- R187: a frame, its length byte first and its CRC last. -/
def encodeFrame (b : RequestBody) : List Byte :=
  let head := BitVec.ofNat 8 (b.payload.length + 4) :: b.code :: b.tag :: b.payload
  head ++ crcBytes head

end Sys2Proof
end

