-- ==== Sys2Proof/Machine/Flags.lean ====
section
/-! DEFINITION. Fault records, stop decisions, event bits, the output levels and the link status byte:
all the flags the part shows. -/

namespace Sys2Proof.Machine

/-! ### Fault kinds and the stop decision (R158, R162) -/

/-- R158: the kind number. -/
def FaultKind.number : FaultKind → Fin 11
  | .underrun => 0
  | .parity => 1
  | .carrierMissed => 2
  | .carrierLost => 3
  | .homeMismatch => 4
  | .overspeed => 5
  | .encoder => 6
  | .reversal => 7
  | .planInvalid => 8
  | .planStarved => 9
  | .haltInput => 10

/-- R158, R162: whether an occurrence of a kind stops under a policy. -/
def Policy.stops (p : Policy) : FaultKind → Bool
  | .underrun => p.stopEnable[0]
  | .parity => p.stopEnable[1]
  | .carrierMissed => p.stopEnable[2]
  | .carrierLost => p.stopEnable[3]
  | .homeMismatch => p.stopEnable[4]
  | .overspeed => p.stopEnable[5]
  | .encoder | .reversal | .planInvalid | .planStarved | .haltInput => true

/-- R162: the run states in which a stopping occurrence sets the stopped flag. -/
def RunState.running : RunState → Bool
  | .setup => false
  | .ready | .prepared | .knitting | .held => true

/-- R75: the run states in which a stop causes a course abort. -/
def RunState.abortable : RunState → Bool
  | .ready | .prepared | .knitting => true
  | .setup | .held => false

/-! ### Occurrences (R160, R161) -/

/-- What a block reports. An absent position or plan tag is filled as R161 says. -/
structure Report where
  kind : FaultKind
  position : Option Int
  system : Option (Fin 4)
  bed : Option Bed
  needle : Option Nat
  planTag : Option Byte
  detail : Nat
deriving DecidableEq, Repr

/-- A report that gives nothing but its kind and detail code. -/
def Report.plain (kind : FaultKind) (detail : Nat) : Report :=
  ⟨kind, none, none, none, none, none, detail⟩

/-- R161: the tag of the prepared plan in PREPARED or of the active plan in KNITTING. -/
def Engine.standingTag (e : Engine) : Option Byte :=
  match e.runState with
  | .prepared | .knitting => e.course.map (·.tag)
  | .setup | .ready | .held => none

/-- R161: the context of an occurrence. -/
def contextOf (s : State) (r : Report) : Context where
  courseNumber := s.engine.courseNumber
  position := r.position.getD s.tracker.position
  system := r.system
  bed := r.bed
  needle := r.needle
  planTag := r.planTag.or s.engine.standingTag
  detail := r.detail

/-- R160: an occurrence taken against the record of its kind. -/
def raiseRecord (record : Option FaultRecord) (context : Context) (stopping : Bool) : FaultRecord :=
  match record with
  | none => ⟨stopping, 1, context⟩
  | some r => ⟨r.stopped || stopping, min (r.count + 1) 255, r.context⟩

/-- R160, R162: take an occurrence against its record, without acting on a stop. -/
def noteReport (s : State) (r : Report) : State :=
  let i := r.kind.number
  let stopping := s.faults.policy.stops r.kind && s.engine.runState.running
  s.withFaults { s.faults with
    records := s.faults.records.set i (some (raiseRecord s.faults.records[i] (contextOf s r) stopping)) }

/-! ### Event bits (R166) -/

/-- R91. -/
def setCourseDone (s : State) : State := s.withFaults { s.faults with courseDone := true }
/-- R66, R67. -/
def setMarkDone (s : State) : State := s.withFaults { s.faults with markDone := true }
/-- R33. -/
def setLoadEmpty (s : State) : State := s.withFaults { s.faults with loadEmpty := true }

/-! ### Lines of the part (R77, R128, R142, R167, R178) -/

/-- R167: whether ATTN is asserted by the records and the event bits. -/
def FaultBlock.attention (f : FaultBlock) : Bool :=
  (List.finRange 11).any (fun i => f.records[i].isSome && f.policy.faultAttention[i]) ||
  (f.courseDone && f.policy.eventAttention[0]) ||
  (f.markDone && f.policy.eventAttention[1]) ||
  (f.loadEmpty && f.policy.eventAttention[2])

/-- R77, R178: STOP_REQ is asserted exactly while the run state is HELD, and released in reset. -/
def stopReq (s : State) : Bool := !s.inReset && decide (s.engine.runState = .held)

/-- R109, R178: SLOW, released in reset. -/
def slowLine (s : State) : Bool := !s.inReset && s.tracker.slow

/-- R167, R178: ATTN, released in reset. -/
def attnLine (s : State) : Bool := !s.inReset && s.faults.attention

/-- R178, R184: whether SDO is driven, which it is only while CS_N is low, and never in reset. -/
def sdoDriven (s : State) : Bool := !s.inReset && s.link.transfer.isSome

/-- R184: STOP_REQ and SLOW are asserted high, ATTN low. -/
def stopReqLevel (s : State) : Bool := stopReq s
/-- R184. -/
def slowLevel (s : State) : Bool := slowLine s
/-- R184. -/
def attnLevel (s : State) : Bool := !attnLine s

/-- The channel of a system on a bed. -/
def State.channel (s : State) (bed : Bed) (sys : Fin 4) : Channel :=
  match bed with
  | .front => s.front[sys]
  | .back => s.back[sys]

/-- R128: whether the knit coil (false) or the tuck coil (true) of a pair is energised. -/
def Coil.energised : Coil → Bool → Bool
  | .off, _ => false
  | .knit, tuckCoil => !tuckCoil
  | .tuck, tuckCoil => tuckCoil

/-- R195: the place of a coil output in the order F0K, F0T, F1K .. F3T, B0K .. B3T. -/
def coilIndex (bed : Bed) (sys : Fin 4) (tuckCoil : Bool) : Fin 16 :=
  ⟨(match bed with | .front => 0 | .back => 8) + 2 * sys.val + tuckCoil.toNat, by
    have := sys.isLt; cases bed <;> cases tuckCoil <;> simp <;> omega⟩

/-- R128, R178: the driven level of a coil output, true for high. In reset it is low. -/
def coilLevel (s : State) (bed : Bed) (sys : Fin 4) (tuckCoil : Bool) : Bool :=
  !s.inReset &&
    ((s.channel bed sys).coil.energised tuckCoil ^^
      s.geometry.coilInverted[coilIndex bed sys tuckCoil])

/-- R129, R142: whether a pin is driven down, by its force where it has one. -/
def Pin.drivenDown (p : Pin) : Bool :=
  match p.force with
  | some .down => true
  | some .up => false
  | none => decide (p.state ≠ .up)

/-- R142, R178: the driven level of a pin output, true for high. In reset it is low. -/
def pinLevel (s : State) (sys : Fin 4) : Bool :=
  !s.inReset && (s.pins[sys].drivenDown ^^ s.geometry.pinInverted[sys])

/-! ### The link status byte (R186) -/

/-- R186: EXECUTING. -/
def Link.executing (l : Link) : Bool := l.request.isSome || l.restarting

/-- R186, R193: REPLY_READY. -/
def Link.replyReady (l : Link) : Bool :=
  match l.reply with
  | some r => !r.read
  | none => false

/-- R186 and the Link status byte layout of section 10.7. -/
def statusByte (s : State) : Byte :=
  byteOfBits s.link.ready s.link.replyReady s.link.executing (attnLine s) s.link.dropped
    false false false

end Sys2Proof.Machine
end

