-- ==== Sys2Proof/Machine/Pattern.lean ====
section
/-! DEFINITION. Pattern arithmetic (chapter 1): the decision of one needle for one entry. -/

namespace Sys2Proof.Machine

/-! ### Floor division (R1) -/

/-- R1: the greatest integer not greater than x/y. -/
def floorDiv (x y : Int) : Int := Int.fdiv x y

/-- R1: the floor remainder x − y·floor(x/y). -/
def floorMod (x y : Int) : Int := x - y * floorDiv x y

/-- R1: the least integer not less than x/y, for a positive y. -/
def ceilDiv (x y : Nat) : Nat := (x + y - 1) / y

/-! ### Directions -/

/-- The opposite direction. -/
def opposite : Direction → Direction
  | .right => .left
  | .left => .right

/-- 00_scope.md, Pass order: x lies strictly before y. -/
def before (d : Direction) (x y : Int) : Bool :=
  match d with
  | .right => decide (x < y)
  | .left => decide (y < x)

/-- x lies at or before y in pass order. -/
def atOrBefore (d : Direction) (x y : Int) : Bool := !before d y x

/-- The needle n places further in the direction of the pass. -/
def ahead (d : Direction) (x : Int) (n : Int) : Int :=
  match d with
  | .right => x + n
  | .left => x - n

/-- The needles from a to b in pass order, both ends included. -/
def passRange (d : Direction) (a b : Nat) : List Nat :=
  match d with
  | .right => (List.range (b + 1 - a)).map (a + ·)
  | .left => (List.range (a + 1 - b)).map (a - ·)

/-! ### Tiles (R11, R12, R25) -/

/-- R1, R25: the row pitch p = ceil(W/16). -/
def Tile.pitch (t : Tile) : Nat := ceilDiv t.width 16

/-- R25: the first word after the extent, B + H·p. -/
def Tile.limit (t : Tile) : Nat := t.base + t.height * t.pitch

/-- R25: the last word of the extent. -/
def Tile.lastWord (t : Tile) : Nat := t.limit - 1

/-! ### Stage 1: membership (R5, R6) -/

/-- R5: the edge met first in pass order. -/
def ZoneFields.nearEdge (z : ZoneFields) (d : Direction) : Nat :=
  match d with
  | .right => z.left
  | .left => z.right

/-- R5: the other edge. -/
def ZoneFields.farEdge (z : ZoneFields) (d : Direction) : Nat :=
  match d with
  | .right => z.right
  | .left => z.left

/-- R5: a front needle belongs to the zone. -/
def ZoneFields.hasFront (z : ZoneFields) (n : Nat) : Bool :=
  decide (z.left ≤ n) && decide (n ≤ z.right)

/-- R6: a back needle belongs to the zone under a racking. -/
def ZoneFields.hasBack (z : ZoneFields) (racking : Int) (b : Nat) : Bool :=
  decide ((z.left : Int) ≤ b + racking) && decide ((b : Int) + racking ≤ z.right)

/-! ### Stages 2 and 3: column, word and nibble (R7 to R11) -/

/-- R7, R8: the unmirrored column mod(n − E, W). -/
def unmirrored (width effective n : Nat) : Nat :=
  (floorMod ((n : Int) - effective) width).toNat

/-- R9: the column, mirrored after the floor remainder. -/
def column (width effective : Nat) (mirror : Bool) (n : Nat) : Nat :=
  if mirror then width - 1 - unmirrored width effective n else unmirrored width effective n

/-- The column of a front needle of a zone on its tile. -/
def ZonePart.columnOf (z : ZonePart) (t : Tile) (n : Nat) : Nat :=
  column t.width z.effective z.given.mirror n

/-- R11: the word B + r·p + floor(u/16) that holds the needle's pixel. -/
def ZonePart.wordOf (z : ZonePart) (t : Tile) (n : Nat) : Nat :=
  t.base + z.given.row * t.pitch + z.columnOf t n / 16

/-- R11: the nibble mod(u, 16) of that word. -/
def ZonePart.nibbleOf (z : ZonePart) (t : Tile) (n : Nat) : Nat := z.columnOf t n % 16

/-! ### Stage 4: the pixel (R14, R11) -/

/-- R11, R197: the pixel at a nibble of a word. -/
def pixelAt (data : BitVec 64) (nibble : Nat) : BitVec 4 := data.extractLsb' (4 * nibble) 4

/-! ### Stage 5: the front decision (R15 to R18) -/

/-- A decision with its origin and the float counter it leaves. -/
structure Ruling where
  decision : Decision
  origin : Origin
  floatCount : Nat
deriving DecidableEq, Repr

/-- The decision that a stitch asks for. -/
def Stitch.decision : Stitch → Decision
  | .knit => .knit
  | .tuck => .tuck

/-- R15: a map entry's decision for a pixel of the entry's own slot. -/
def MapEntry.ownRuling (m : MapEntry) : Ruling := ⟨m.stitch.decision, .pattern, 0⟩

/-- R16, R17: the decision for a pixel of another slot, from the float limit and the counter. -/
def floatRuling (limit count : Nat) : Ruling :=
  if limit = 0 then ⟨.miss, .pattern, min (count + 1) 63⟩
  else if count + 1 < limit then ⟨.miss, .pattern, count + 1⟩
  else ⟨.tuck, .tie, 0⟩

/-- R15 to R17: the decision of a front needle with pixel v for an entry's slot. -/
def frontRuling (z : ZoneFields) (slot : Fin 8) (count : Nat) (v : BitVec 4) : Ruling :=
  let m := z.map[v.toFin]
  if m.slot = slot then m.ownRuling else floatRuling z.floatLimit count

/-- R14, R18: a needle whose word failed its check; the counter keeps its value. -/
def fallbackRuling (count : Nat) : Ruling := ⟨.miss, .fallback, count⟩

/-! ### Stage 6: the back decision (R19 to R21) -/

/-- R19: the place of an entry among the entries of its zone in ascending order of system. -/
def ordinalOf (entries : List Entry) (e : Entry) : Nat :=
  (entries.filter (fun f => decide (f.zone = e.zone) && decide (f.system < e.system))).length

/-- R20, R21: the decision of a back needle. -/
def backDecision (z : ZonePart) (e : Entry) (ordinal b : Nat) : Decision :=
  let sum := b + z.backingCounter.toNat + ordinal
  if e.back then
    match z.given.backing with
    | .none => .miss
    | .stripe => .knit
    | .birdseye => if sum % 2 = 0 then .knit else .miss
    | .ladder => if sum % z.given.colours = 0 then .knit else .miss
  else .miss

end Sys2Proof.Machine
end

