-- ==== Sys2Proof/Machine/Operands.lean ====
section
/-! DEFINITION. Operand forms: payload fields as numbers with their ranges, and the fields of replies as
bytes (R195, R198, R199, R200). -/

namespace Sys2Proof.Machine

/-! ### Ranges -/

/-- A number lies in lo..hi. -/
def within (lo hi x : Int) : Bool := decide (lo ≤ x) && decide (x ≤ hi)

/-- An id below n, none where it is out of range. -/
def idOf (n : Nat) (b : Byte) : Option (Fin n) :=
  if h : b.toNat < n then some ⟨b.toNat, h⟩ else none

/-- R195: a flag byte is 1 for set and 0 for clear; any other is out of range. -/
def flagOf (b : Byte) : Option Bool :=
  if b = 0 then some false else if b = 1 then some true else none

/-- A field that is not given, or is given and passes. -/
def passes {α : Type} (f : Option α) (p : α → Bool) : Bool :=
  match f with
  | some x => p x
  | none => true

/-! ### Directions and backing (R195, R198, R199) -/

/-- R199: 0 RIGHT, 1 LEFT, other values reserved. -/
def directionOf (b : Byte) : Option Direction :=
  if b = 0 then some .right else if b = 1 then some .left else none

/-- R195: the number of a direction. -/
def directionNumber : Direction → Nat
  | .right => 0
  | .left => 1

/-- R198: the four backing rules in their order. -/
def backingOf (n : Nat) : Backing :=
  match n with
  | 0 => .none
  | 1 => .stripe
  | 2 => .birdseye
  | _ => .ladder

/-- R198: the number of a backing rule. -/
def Backing.number : Backing → Nat
  | .none => 0
  | .stripe => 1
  | .birdseye => 2
  | .ladder => 3

/-! ### Zone fields (R198) -/

/-- R198: a map entry, slot in bits 0..2 and stitch in bit 3. -/
def mapEntryOf (b : Byte) : MapEntry :=
  ⟨(b.extractLsb' 0 3).toFin, if b.getLsbD 3 then .tuck else .knit⟩

/-- R198: bits 4..7 of a map entry are reserved. -/
def mapReservedClear (map : Vector Byte 16) : Bool :=
  map.toList.all (fun b => decide (b.extractLsb' 4 4 = 0#4))

/-- R43, R49: every map slot is below k. -/
def slotsBelow (map : Vector MapEntry 16) (k : Nat) : Bool :=
  map.toList.all (fun m => decide (m.slot.val < k))

/-- R49: the third check of Define Zone, with the tile id: the given fields when all are in range. -/
def zoneFieldsOf (g : Geometry) (p : ZonePayload) : Option ZoneFields :=
  match idOf 64 p.tile with
  | none => none
  | some tile =>
    let map := p.map.map mapEntryOf
    if decide (p.left.toNat ≤ p.right.toNat) && decide (p.right.toNat < g.bedWidth) &&
        within (-2048) 4095 p.anchor.toInt && within (-1023) 1023 p.shift.toInt &&
        within 1 4 p.repeats.toNat && within 1 8 p.colours.toNat &&
        within 0 63 p.floatLimit.toNat && decide (p.packed.extractLsb' 3 5 = 0#5) &&
        mapReservedClear p.map && slotsBelow map p.colours.toNat then
      some { left := p.left.toNat, right := p.right.toNat, tile := tile,
             anchor := p.anchor.toInt, shift := p.shift.toInt, mirror := p.packed.getLsbD 2,
             row := p.row.toNat, repeats := p.repeats.toNat, colours := p.colours.toNat,
             map := map, backing := backingOf (p.packed.extractLsb' 0 2).toNat,
             floatLimit := p.floatLimit.toNat }
    else none

/-- R52, R198: the fourth check of Edit Zone: the given fields when each is in its range. A given row
is tested against its tile by the agreement test (log 20). -/
def editFieldsOf (g : Geometry) (p : EditPayload) : Option PendingFields :=
  if decide (p.reserved = 0#4) &&
      passes p.left (fun x => decide (x.toNat < g.bedWidth)) &&
      passes p.right (fun x => decide (x.toNat < g.bedWidth)) &&
      passes p.tile (fun x => decide (x.toNat < 64)) &&
      passes p.anchor (fun x => within (-2048) 4095 x.toInt) &&
      passes p.shift (fun x => within (-1023) 1023 x.toInt) &&
      passes p.repeats (fun x => within 1 4 x.toNat) &&
      passes p.colours (fun x => within 1 8 x.toNat) &&
      passes p.floatLimit (fun x => within 0 63 x.toNat) &&
      passes p.backing (fun x => within 0 3 x.toNat) &&
      passes p.mirror (fun x => (flagOf x).isSome) &&
      passes p.map mapReservedClear then
    some { left := p.left.map (·.toNat), right := p.right.map (·.toNat),
           tile := p.tile.bind (idOf 64), anchor := p.anchor.map (·.toInt),
           shift := p.shift.map (·.toInt), mirror := p.mirror.bind flagOf,
           row := p.row.map (·.toNat), repeats := p.repeats.map (·.toNat),
           colours := p.colours.map (·.toNat), map := p.map.map (·.map mapEntryOf),
           backing := p.backing.map (fun b => backingOf b.toNat),
           floatLimit := p.floatLimit.map (·.toNat) }
  else none

/-- R52: the mask names no field. -/
def PendingFields.isEmpty (p : PendingFields) : Bool :=
  p.left.isNone && p.right.isNone && p.tile.isNone && p.anchor.isNone && p.shift.isNone &&
  p.mirror.isNone && p.row.isNone && p.repeats.isNone && p.colours.isNone && p.map.isNone &&
  p.backing.isNone && p.floatLimit.isNone

/-! ### Plans (R199) -/

/-- R199: one entry, none where its system or zone is out of range (R80). -/
def entryOf (g : Geometry) (p : EntryPayload) : Option Entry :=
  match idOf 4 p.system, idOf 32 p.zone with
  | some sys, some zone =>
    if sys.val < g.systems then
      some { system := sys, zone := zone, carrier := (p.packed.extractLsb' 0 4).toFin,
             slot := (p.packed.extractLsb' 4 3).toFin, back := p.packed.getLsbD 7 }
    else none
  | _, _ => none

/-- R80: the RANGE check of Queue Course: the plan when every field is in range. -/
def planOf (g : Geometry) (p : PlanPayload) : Option Plan :=
  match directionOf p.direction, p.entries.mapM (entryOf g) with
  | some d, some entries =>
    if within (-8) 8 p.racking.toInt &&
        within (-1024) (g.bedWidth + 1023) p.endPosition.toInt &&
        decide (p.entries.length ≤ 16) then
      some { tag := p.planTag, direction := d, racking := p.racking.toInt,
             endPosition := p.endPosition.toInt, entries := entries }
    else none
  | _, _ => none

/-! ### Fields of replies (R195) -/

/-- A one-byte field. -/
def byteN (n : Nat) : Byte := BitVec.ofNat 8 n

/-- A flag byte. -/
def byteFlag (b : Bool) : Byte := if b then 1 else 0

/-- A two-byte field, in two's complement where it is signed. -/
def bytesInt (x : Int) : List Byte := bytesOfHalf (BitVec.ofInt 16 x)

/-- A two-byte field of a natural number. -/
def bytesNat (n : Nat) : List Byte := bytesOfHalf (BitVec.ofNat 16 n)

/-- R195: an optional one-byte field after its flag byte. -/
def optField (b : Option Byte) : List Byte :=
  match b with
  | some v => [1, v]
  | none => [0, 0]

/-- R195: an optional two-byte field after its flag byte. -/
def optField2 (h : Option (List Byte)) : List Byte :=
  match h with
  | some v => 1 :: v
  | none => [0, 0, 0]

/-- R198: a map entry as it is sent. -/
def mapEntryByte (m : MapEntry) : Byte :=
  byteN (m.slot.val + (match m.stitch with | .knit => 0 | .tuck => 8))

/-- R195: a colour map, one byte per entry in pixel order. -/
def mapBytes (map : Vector MapEntry 16) : List Byte := map.toList.map mapEntryByte

/-- R197: a pixel word crosses the link as eight bytes, byte i in bits 8i..8i+7. -/
def wordBytes (d : BitVec 64) : List Byte :=
  (List.range 8).map (fun i => d.extractLsb' (8 * i) 8)

/-- R197: the word that eight bytes carry, byte 0 lowest. -/
def wordOfBytes (bytes : List Byte) : BitVec 64 :=
  bytes.foldr (fun b d => (d <<< 8) ||| b.zeroExtend 64) 0

/-- R32, R197: the words of a Tile Data payload, n of them, in payload order. -/
def wordsOfBytes : Nat → List Byte → List (BitVec 64)
  | 0, _ => []
  | n + 1, l => wordOfBytes (l.take 8) :: wordsOfBytes n (l.drop 8)

/-- R43, R58: a zone's current part, the fields in the order of R43. -/
def currentBytes (z : ZonePart) : List Byte :=
  bytesNat z.given.left ++ bytesNat z.given.right ++ [byteN z.given.tile.val] ++
  bytesInt z.given.anchor ++ bytesNat z.effective ++ bytesInt z.given.shift ++
  [byteFlag z.given.mirror] ++ bytesNat z.given.row ++
  [byteN z.repeatIndex, byteN z.given.repeats, byteN z.given.colours] ++ mapBytes z.given.map ++
  [byteN z.given.backing.number, byteN z.given.floatLimit, z.backingCounter, z.served]

/-- The bytes of a pending field that may be absent. -/
def givenBytes {α : Type} (f : Option α) (send : α → List Byte) : List Byte :=
  match f with
  | some x => send x
  | none => []

/-- R195, R198: a pending part, its mask and the fields it names in mask-bit order. -/
def pendingBytes (p : PendingFields) : List Byte :=
  byteOfBits p.left.isSome p.right.isSome p.tile.isSome p.anchor.isSome p.shift.isSome
    p.row.isSome p.repeats.isSome p.colours.isSome ::
  byteOfBits p.floatLimit.isSome p.backing.isSome p.mirror.isSome p.map.isSome
    false false false false ::
  (givenBytes p.left bytesNat ++ givenBytes p.right bytesNat ++
   givenBytes p.tile (fun t => [byteN t.val]) ++ givenBytes p.anchor bytesInt ++
   givenBytes p.shift bytesInt ++ givenBytes p.row bytesNat ++
   givenBytes p.repeats (fun n => [byteN n]) ++ givenBytes p.colours (fun n => [byteN n]) ++
   givenBytes p.floatLimit (fun n => [byteN n]) ++
   givenBytes p.backing (fun b => [byteN b.number]) ++
   givenBytes p.mirror (fun b => [byteFlag b]) ++ givenBytes p.map mapBytes)

/-- The pending part of a PENDING zone, in which every field is present (R46). -/
def ZoneFields.asPending (f : ZoneFields) : PendingFields where
  left := some f.left
  right := some f.right
  tile := some f.tile
  anchor := some f.anchor
  shift := some f.shift
  mirror := some f.mirror
  row := some f.row
  repeats := some f.repeats
  colours := some f.colours
  map := some f.map
  backing := some f.backing
  floatLimit := some f.floatLimit

/-- A pending part that holds no field. -/
def PendingFields.empty : PendingFields where
  left := none
  right := none
  tile := none
  anchor := none
  shift := none
  mirror := none
  row := none
  repeats := none
  colours := none
  map := none
  backing := none
  floatLimit := none

/-- R58, R195: the payload of a Read Zone reply. -/
def zoneBytes : Zone → List Byte
  | .pending f => byteN 0 :: (List.replicate 37 0 ++ pendingBytes f.asPending)
  | .live c p => byteN 1 :: (currentBytes c ++ pendingBytes (p.getD PendingFields.empty))
  | .retiring c p => byteN 2 :: (currentBytes c ++ pendingBytes p)

/-- R175, R177, R195: the geometry record as the reply to Configure carries it: its fields, the polarities as
bitmaps, with no field mask before them (log 37). -/
def geometryBytes (g : Geometry) : List Byte :=
  bytesNat g.bedWidth ++ [byteN g.systems, byteN g.pulses] ++ bytesNat g.homeNeedle ++
  [byteN g.homeTolerance] ++ g.pointOffset.toList.flatMap bytesInt ++
  g.pinOffset.toList.flatMap bytesInt ++
  [byteN g.engageLead, byteN g.catchWindow, byteN g.overshoot, byteN g.clearance] ++
  bytesNat g.fastLimit ++ bytesNat g.clearLimit ++
  [byteN (match g.arbiterMode with | .alternating => 0 | .rotating => 1), byteN g.urgency] ++
  bytesOfHalf (BitVec.ofNat 16 ((List.finRange 16).foldl
    (fun n i => n + (if g.coilInverted[i] then 2 ^ i.val else 0)) 0)) ++
  [byteN ((List.finRange 4).foldl (fun n i => n + (if g.pinInverted[i] then 2 ^ i.val else 0)) 0)]

/-- R161, R169, R195: a context, each optional field after its flag. -/
def contextBytes (c : Context) : List Byte :=
  bytesOfHalf c.courseNumber ++ bytesInt c.position ++ optField (c.system.map (byteN ·.val)) ++
  optField (c.bed.map (fun b => match b with | .front => 0 | .back => 1)) ++
  optField2 (c.needle.map bytesNat) ++ optField c.planTag ++ [byteN c.detail]

/-- R169, R195: the payload of a Read Fault reply. -/
def recordBytes (r : Option FaultRecord) : List Byte :=
  match r with
  | some r => [1, byteFlag r.stopped, byteN r.count, 1] ++ contextBytes r.context
  | none => [0, 0, 0, 0] ++ List.replicate 14 0

end Sys2Proof.Machine
end

