-- ==== Sys2Proof/Machine/Ops.lean ====
section
/-! DEFINITION. The operations that commands share: records and their counts, the application of pending
parts, the course abort, taking fault occurrences, the preparers, the store port's arbiter and the
link's request and reply slots. -/

namespace Sys2Proof.Machine

/-! ### Records by id -/

/-- The tile record in a place of the directory (R25). -/
def State.tile? (s : State) (i : Fin 64) : Option Tile := s.store.tiles[i]

/-- The zone in a place of the table (R43). -/
def State.zone? (s : State) (i : Fin 32) : Option Zone := s.zones.places[i]

/-- R43, R44: the current part of a zone. -/
def Zone.current? : Zone → Option ZonePart
  | .pending _ => none
  | .live c _ => some c
  | .retiring c _ => some c

/-- R46: the retire flag. -/
def Zone.isRetiring : Zone → Bool
  | .retiring _ _ => true
  | .pending _ | .live _ _ => false

/-- R46: whether a zone has a pending part. -/
def Zone.hasPending : Zone → Bool
  | .pending _ => true
  | .live _ p => p.isSome
  | .retiring _ _ => true

/-- The current part of the zone in a place. -/
def State.part? (s : State) (i : Fin 32) : Option ZonePart := (s.zone? i).bind Zone.current?

/-- R25, R30: the cursor-open flag of a tile. -/
def State.cursorOpen (s : State) (i : Fin 64) : Bool :=
  decide (s.store.cursor.map (·.tile) = some i)

/-- Replace a tile place. -/
def setTile (s : State) (i : Fin 64) (t : Option Tile) : State :=
  s.withStore { s.store with tiles := s.store.tiles.set i t }

/-- Replace a zone place. -/
def setZone (s : State) (i : Fin 32) (z : Option Zone) : State :=
  s.withZones { s.zones with places := s.zones.places.set i z }

/-- Replace a carrier's state, keeping its yarn code. -/
def setCarrierState (s : State) (i : Fin 16) (c : CarrierState) : State :=
  s.withCarriers (s.carriers.set i { s.carriers[i] with state := c })

/-- Replace a pin's record, keeping its force and catch sense. -/
def setPinState (s : State) (i : Fin 4) (p : PinState) : State :=
  s.withPins (s.pins.set i { s.pins[i] with state := p })

/-- Replace a channel. -/
def setChannel (s : State) (bed : Bed) (sys : Fin 4) (ch : Channel) : State :=
  match bed with
  | .front => s.withFront (s.front.set sys ch)
  | .back => s.withBack (s.back.set sys ch)

/-- Replace the entry runs of the prepared or active plan. -/
def setRuns (s : State) (runs : List EntryRun) : State :=
  s.withEngine { s.engine with course := s.engine.course.map (fun k => { k with runs := runs }) }

/-- R150: the status of an entry of the active plan. -/
def setStatus (s : State) (index : Nat) (st : EntryStatus) : State :=
  match s.engine.course with
  | some k => setRuns s (k.runs.modify index (fun r => { r with status := some st }))
  | none => s

/-! ### Reference counts (R27) -/

/-- R27: a zone field comes to name the tile. -/
def addReference (s : State) (i : Fin 64) : State :=
  match s.tile? i with
  | some t => setTile s i (some { t with references := t.references + 1 })
  | none => s

/-- R27: a zone field ceases to name the tile. -/
def dropReference (s : State) (i : Fin 64) : State :=
  match s.tile? i with
  | some t => setTile s i (some { t with references := t.references - 1 })
  | none => s

/-- R27: the pending-tile field of a pending part, if it is given, ceases to name its tile. -/
def dropPendingTile (s : State) (p : PendingFields) : State :=
  match p.tile with
  | some t => dropReference s t
  | none => s

/-- The width of a tile of the directory. -/
def State.widthOf (s : State) (i : Fin 64) : Nat :=
  match s.tile? i with
  | some t => t.width
  | none => 1

/-- The height of a tile of the directory. -/
def State.heightOf (s : State) (i : Fin 64) : Nat :=
  match s.tile? i with
  | some t => t.height
  | none => 1

/-! ### Applying fields to a current part (R50, R54, R63) -/

/-- R50, R63: the current part of a zone defined with these fields on a tile of this width. -/
def freshPart (f : ZoneFields) (width : Nat) : ZonePart where
  given := f
  effective := (floorMod f.anchor width).toNat
  repeatIndex := 0
  backingCounter := 0
  served := 0

/-- R54: each given field replaces its value; a tile without a row sets the row to 0. -/
def replaceFields (f : ZoneFields) (p : PendingFields) : ZoneFields where
  left := p.left.getD f.left
  right := p.right.getD f.right
  tile := p.tile.getD f.tile
  anchor := p.anchor.getD f.anchor
  shift := p.shift.getD f.shift
  mirror := p.mirror.getD f.mirror
  row := p.row.getD (if p.tile.isSome then 0 else f.row)
  repeats := p.repeats.getD f.repeats
  colours := p.colours.getD f.colours
  map := p.map.getD f.map
  backing := p.backing.getD f.backing
  floatLimit := p.floatLimit.getD f.floatLimit

/-- R54, R63: apply fields to a current part with the derived changes of R54; `width` is the width of
the resulting tile. -/
def applyFields (c : ZonePart) (p : PendingFields) (width : Nat) : ZonePart :=
  let given := replaceFields c.given p
  { given := given
    effective := if p.tile.isSome || p.anchor.isSome then (floorMod given.anchor width).toNat
      else c.effective
    repeatIndex := if p.tile.isSome || p.row.isSome || p.repeats.isSome then 0 else c.repeatIndex
    backingCounter := c.backingCounter
    served := if p.tile.isSome || p.row.isSome || p.colours.isSome || p.map.isSome then 0
      else c.served }

/-- R63: apply the pending part of one zone, with the reference counts it moves (R27). -/
def applyZone (s : State) (i : Fin 32) : State :=
  match s.zone? i with
  | none => s
  | some (.live _ none) => s
  | some (.pending f) => setZone s i (some (.live (freshPart f (s.widthOf f.tile)) none))
  | some (.live c (some p)) =>
    let s' := setZone s i (some (.live (applyFields c p (s.widthOf (p.tile.getD c.given.tile))) none))
    match p.tile with
    | some t => addReference (dropReference (dropReference s' c.given.tile) t) t
    | none => s'
  | some (.retiring c p) =>
    dropPendingTile (dropReference (setZone s i none) c.given.tile) p

/-- R67: a pending mark completes after an application. -/
def completeMark (s : State) : State :=
  match s.zones.pendingMark with
  | some t => setMarkDone (s.withZones { s.zones with pendingMark := none, lastMark := t })
  | none => s

/-- R62, R64, R67: apply every pending part, then complete a pending mark. -/
def applyPendingParts (s : State) : State :=
  completeMark ((List.finRange 32).foldl applyZone s)

/-! ### Positions of points and pins (R114, R143) -/

/-- The place of a direction in an index of offsets (R195). -/
def directionIndex : Direction → Fin 2
  | .right => 0
  | .left => 1

/-- R175, R195: the point offset of a channel in a direction. -/
def Geometry.pointOffsetOf (g : Geometry) (bed : Bed) (sys : Fin 4) (d : Direction) : Int :=
  g.pointOffset[sys.val * 4 + (match bed with | .front => 0 | .back => 2) + (directionIndex d).val]'(by
    have := sys.isLt; have := (directionIndex d).isLt; cases bed <;> simp <;> omega)

/-- R175, R195: the pin offset of a system in a direction. -/
def Geometry.pinOffsetOf (g : Geometry) (sys : Fin 4) (d : Direction) : Int :=
  g.pinOffset[sys.val * 2 + (directionIndex d).val]'(by have := sys.isLt; have := (directionIndex d).isLt; omega)

/-- R114: the front-bed position of a channel's point. -/
def pointPosition (s : State) (bed : Bed) (sys : Fin 4) (d : Direction) : Int :=
  s.tracker.position + s.geometry.pointOffsetOf bed sys d

/-- R114: the needle number under a channel's point, which may be no needle of the bed. -/
def pointNeedle (s : State) (k : Course) (bed : Bed) (sys : Fin 4) : Int :=
  match bed with
  | .front => pointPosition s bed sys k.direction
  | .back => pointPosition s bed sys k.direction - k.racking

/-- R143: the position of a pin. -/
def pinPosition (s : State) (sys : Fin 4) (d : Direction) : Int :=
  s.tracker.position + s.geometry.pinOffsetOf sys d

/-- R101: the ends of the position range. -/
def Geometry.positionLimit (g : Geometry) : Direction → Int
  | .right => g.bedWidth + 1023
  | .left => -1024

/-! ### Carriers and clearance (R136) -/

/-- R136: the rail partner of a carrier. -/
def partnerOf (i : Fin 16) : Fin 16 :=
  ⟨if i.val % 2 = 0 then i.val + 1 else i.val - 1, by have := i.isLt; split <;> omega⟩

/-- R85, R136: two positions lie within C needles of each other. -/
def nearTo (clearance : Nat) (x y : Int) : Bool := decide ((x - y).natAbs < clearance)

/-- R85, R136: a position lies within C needles of an interval. -/
def nearInterval (clearance : Nat) (x a b : Int) : Bool :=
  (decide (min a b ≤ x) && decide (x ≤ max a b)) || nearTo clearance x a || nearTo clearance x b

/-- R135: the rest positions a carrier may have. -/
def Geometry.restRange (g : Geometry) (x : Int) : Bool := within (-256) (g.bedWidth + 255) x

/-! ### Giving up a plan (R131, R133) -/

/-- R131, R132, R133: a channel gives up its plan; a fetch in flight becomes stale. -/
def Channel.giveUp (ch : Channel) : Channel :=
  { ch with
    span := none, preparer := .idle, next := .none, pendingRead := none, fetch := none
    stale := ch.stale || ch.fetch.isSome
    queue := [], coil := .off }

/-- Every channel gives up the plan. -/
def giveUpChannels (s : State) : State :=
  (s.withFront (s.front.map Channel.giveUp)).withBack (s.back.map Channel.giveUp)

/-! ### The home correction (R107) -/

/-- R107: apply a pending correction, with the ENCODER report of a clamp. -/
def applyCorrection (s : State) : State × List Report :=
  match s.tracker.correction with
  | none => (s, [])
  | some delta =>
    let c := s.tracker.position + delta
    if within (-1024) (s.geometry.bedWidth + 1023) c then
      (s.withTracker { s.tracker with position := c, correction := none }, [])
    else
      (s.withTracker { s.tracker with
        position := if c < -1024 then -1024 else s.geometry.positionLimit .right
        correction := none, referenced := false }, [Report.plain .encoder 2])

/-! ### The course abort (R76, R155) -/

/-- R155: a pin at a course abort, with the CARRIER_LOST it may report. -/
def raisePin (s : State) (sys : Fin 4) : State × List Report :=
  match s.pins[sys].state with
  | .up => (s, [])
  | .catching _ _ _ _ => (setPinState s sys .up, [])
  | .holding carrier _ d =>
    let x := pinPosition s sys d
    let conflict :=
      match s.carriers[partnerOf carrier].state with
      | .resting y => nearTo s.geometry.clearance x y
      | .absent | .carried _ _ | .lost => false
    if conflict || !s.geometry.restRange x then
      (setCarrierState (setPinState s sys .up) carrier .lost,
        [⟨.carrierLost, none, some sys, none, none, s.engine.course.map (·.tag), carrier.val⟩])
    else (setCarrierState (setPinState s sys .up) carrier (.resting x), [])

/-- R155: every pin at a course abort. -/
def raisePins (s : State) : State × List Report :=
  (List.finRange 4).foldl (fun p sys => ((raisePin p.1 sys).1, p.2 ++ (raisePin p.1 sys).2)) (s, [])

/-- Insert an occurrence by the rank at which it arrives. -/
def insertRanked (n : Nat) (x : Report × Nat) : List (Report × Nat) → List (Report × Nat)
  | [] => [x]
  | y :: rest =>
    if Config.arrivalRank n x.2 ≤ Config.arrivalRank n y.2 then x :: y :: rest
    else y :: insertRanked n x rest

/-- R163: the occurrences of one event in the order in which they reach the fault table (log 14). -/
def arrange (n : Nat) (reports : List Report) : List Report :=
  ((reports.zipIdx.foldr (insertRanked n) [])).map (·.1)

/-- R153: a report whose carriage position stands as c does when it is made. -/
def Report.at (r : Report) (c : Int) : Report := { r with position := some c }

/-- R76: the course abort, and every block's action on it: pins (R155), plans and run state (R76),
channels (R132), zones and mark (R64, R67), correction (R107). Its own occurrences are taken in HELD
(R163). -/
def courseAbort (s : State) : State :=
  let raised := raisePins s
  let dropped := raised.1.withEngine
    { raised.1.engine with runState := .held, course := none, queue := [] }
  let corrected := applyCorrection (applyPendingParts (giveUpChannels dropped))
  let lossPosition := fun n : Nat =>
    if s.tracker.correction = none then s.tracker.position
    else if Config.correctionBeforeLoss s.freeCount n then corrected.1.tracker.position
    else s.tracker.position
  let losses := raised.2.zipIdx.map (fun p => p.1.at (lossPosition p.2))
  (arrange s.freeCount (corrected.2 ++ losses)).foldl noteReport
    corrected.1.bumpFree

/-! ### Taking occurrences (R75, R160, R162, R163) -/

/-- R160, R162, R75: take one occurrence, with the course abort it may cause. -/
def takeReport (s : State) (r : Report) : State :=
  if s.faults.policy.stops r.kind && s.engine.runState.abortable then courseAbort (noteReport s r)
  else noteReport s r

/-- R163: take the occurrences of one event. -/
def takeReports (s : State) (reports : List Report) : State :=
  match reports with
  | [] => s
  | _ => (arrange s.freeCount reports).foldl takeReport s.bumpFree

/-! ### The preparers (R117 to R119) -/

/-- R115: the entry, by index, of a system whose zone a needle of a bed lies in. -/
def entryAt (s : State) (k : Course) (bed : Bed) (sys : Fin 4) (n : Nat) : Option (Nat × EntryRun) :=
  (k.runs.zipIdx.find? (fun p =>
    decide (p.1.entry.system = sys) &&
    match s.part? p.1.entry.zone with
    | some z => (match bed with
      | .front => z.given.hasFront n
      | .back => z.given.hasBack k.racking n)
    | none => false)).map (fun p => (p.2, p.1))

/-- R118: the needle after n in the span, or past its end. -/
def afterNeedle (d : Direction) (sp : Span) (n : Nat) : NextNeedle :=
  if n = sp.last then .past
  else .at (match d with | .right => n + 1 | .left => n - 1)

/-- R16, R118: the float counter of the entry whose front zone the next needle first comes to lie in
is set to 0. -/
def enterZone (s : State) (k : Course) (bed : Bed) (sys : Fin 4) (n : Nat) (next : NextNeedle)
    (runs : List EntryRun) : List EntryRun :=
  match bed, next with
  | .front, .at n' =>
    match entryAt s k bed sys n' with
    | some (i, _) =>
      if (entryAt s k bed sys n).map (·.1) = some i then runs
      else runs.modify i (fun r => { r with floatCount := 0 })
    | none => runs
  | _, _ => runs

/-- R118: move the next needle past needle n. -/
def moveNext (s : State) (k : Course) (bed : Bed) (sys : Fin 4) (sp : Span) (n : Nat)
    (p : Channel × List EntryRun) : Channel × List EntryRun :=
  let next := afterNeedle k.direction sp n
  ({ p.1 with next := next }, enterZone s k bed sys n next p.2)

/-- R118: queue the decision of the next needle and move on. -/
def pushDecision (s : State) (k : Course) (bed : Bed) (sys : Fin 4) (sp : Span) (q : Queued)
    (p : Channel × List EntryRun) : Channel × List EntryRun :=
  moveNext s k bed sys sp q.needle ({ p.1 with queue := p.1.queue ++ [q] }, p.2)

/-- R122: the most decisions a queue holds. -/
def queueLimit : Nat := 48

/-- R117, R118, R119: a filling preparer decides gap and back needles at once and asks for the word of a
front zone needle; it stops when it is full, finished or waits for a word. -/
def fillChannel (s : State) (k : Course) (bed : Bed) (sys : Fin 4) :
    Nat → Channel × List EntryRun → Channel × List EntryRun
  | 0, p => p
  | fuel + 1, (ch, runs) =>
    match ch.span, ch.next with
    | _, .past => ({ ch with preparer := .finished, pendingRead := none }, runs)
    | some sp, .at n =>
      if queueLimit ≤ ch.queue.length then ({ ch with preparer := .full, pendingRead := none }, runs)
      else
        match entryAt s k bed sys n with
        | none => fillChannel s k bed sys fuel
            (pushDecision s k bed sys sp ⟨n, .miss, .gap, none⟩ (ch, runs))
        | some (i, r) =>
          match s.part? r.entry.zone with
          | none => ({ ch with preparer := .filling, pendingRead := none }, runs)
          | some z =>
            match bed with
            | .back => fillChannel s k bed sys fuel (pushDecision s k bed sys sp
                ⟨n, backDecision z r.entry r.ordinal n, .backing, some i⟩ (ch, runs))
            | .front => ({ ch with
                preparer := .filling
                pendingRead := (s.tile? z.given.tile).map (fun t => z.wordOf t n) }, runs)
    | _, _ => (ch, runs)

/-- R117, R118: run one channel's preparer as far as it goes without a word access. -/
def refill (s : State) (bed : Bed) (sys : Fin 4) : State :=
  match s.engine.course with
  | none => s
  | some k =>
    match (s.channel bed sys).preparer with
    | .filling | .full =>
      let p := fillChannel s k bed sys (queueLimit + 1) (s.channel bed sys, k.runs)
      setRuns (setChannel s bed sys p.1) p.2
    | .idle | .fetching | .finished => s

/-- The eight channels, F0..F3 and then B0..B3. -/
def allChannels : List (Bed × Fin 4) :=
  [(.front, 0), (.front, 1), (.front, 2), (.front, 3), (.back, 0), (.back, 1), (.back, 2), (.back, 3)]

/-- Run every preparer. -/
def refillAll (s : State) : State := allChannels.foldl (fun s c => refill s c.1 c.2) s

/-! ### The store port and its arbiter (R35 to R40) -/

/-- R36, R40: the loader is pending. -/
def loaderPending (s : State) : Bool :=
  !s.store.buffer.isEmpty ||
    (match s.link.request with
     | some r => !r.waiting.isEmpty
     | none => false)

/-- R37: the preparers going round from the one after the last granted, which comes last. -/
def preparersAfter (last : Fin 4) : List (Fin 4) := [last + 1, last + 2, last + 3, last]

/-- R36: a front preparer is pending. -/
def preparerPending (s : State) (sys : Fin 4) : Bool := s.front[sys].pendingRead.isSome

/-- R37: a pending preparer is urgent when its queue holds fewer than U decisions. -/
def urgent (s : State) (sys : Fin 4) : Bool :=
  preparerPending s sys && decide (s.front[sys].queue.length < s.geometry.urgency)

/-- R38: the choice in ALTERNATING mode when nobody is urgent. -/
def chooseAlternating (s : State) : Option Requester :=
  if loaderPending s && decide (s.store.lastGranted ≠ .loader) then some .loader
  else
    match (preparersAfter s.store.lastPreparer).find? (preparerPending s) with
    | some i => some (.front i)
    | none => if loaderPending s then some .loader else none

/-- R39: the requesters going round from the one after the last granted, which comes last. -/
def requestersAfter : Requester → List Requester
  | .loader => [.front 0, .front 1, .front 2, .front 3, .loader]
  | .front 0 => [.front 1, .front 2, .front 3, .loader, .front 0]
  | .front 1 => [.front 2, .front 3, .loader, .front 0, .front 1]
  | .front 2 => [.front 3, .loader, .front 0, .front 1, .front 2]
  | .front 3 => [.loader, .front 0, .front 1, .front 2, .front 3]

/-- R36: whether a requester is pending. -/
def requesterPending (s : State) : Requester → Bool
  | .front i => preparerPending s i
  | .loader => loaderPending s

/-- R39: the choice in ROTATING mode when nobody is urgent. -/
def chooseRotating (s : State) : Option Requester :=
  (requestersAfter s.store.lastGranted).find? (requesterPending s)

/-- R37 to R39: whom the arbiter grants among those pending. -/
def arbiterChoice (s : State) : Option Requester :=
  match (preparersAfter s.store.lastPreparer).find? (urgent s) with
  | some i => some (.front i)
  | none =>
    match s.geometry.arbiterMode with
    | .alternating => chooseAlternating s
    | .rotating => chooseRotating s

/-- R36, R119: grant a front preparer; its read becomes the fetch in flight. -/
def grantPreparer (s : State) (sys : Fin 4) : State :=
  match s.front[sys].pendingRead, s.front[sys].next with
  | some w, .at n =>
    (setChannel s .front sys { s.front[sys] with
      preparer := .fetching, pendingRead := none, fetch := some ⟨w, n⟩ }).withStore
      { s.store with inFlight := some (.fetch sys w), lastGranted := .front sys, lastPreparer := sys }
  | _, _ => s

/-- R40: grant the loader: the write of the oldest buffered word, or the next read of Read Tile Words. -/
def grantLoader (s : State) : State :=
  match s.store.buffer, s.link.request with
  | (w, d) :: _, _ =>
    s.withStore { s.store with inFlight := some (.loadWrite w d), lastGranted := .loader }
  | [], some r =>
    match r.waiting with
    | w :: rest =>
      (s.withStore { s.store with inFlight := some (.readBack w), lastGranted := .loader }).withLink
        { s.link with request := some { r with waiting := rest } }
    | [] => s
  | [], none => s

/-- R36: grant the port when it is free and somebody is pending. -/
def grant (s : State) : State :=
  match s.store.inFlight with
  | some _ => s
  | none =>
    match arbiterChoice s with
    | some (.front i) => grantPreparer s i
    | some .loader => grantLoader s
    | none => s

/-- What follows at once on any change: the preparers run on, and the free port is granted (R36, R118;
log 23). -/
def pump (s : State) : State := grant (refillAll s)

/-! ### The request and reply slots (R189, R190, R192) -/

/-- A block's answer to a request: a result code and a payload (R190). -/
structure Answer where
  code : ResultCode
  payload : List Byte
deriving DecidableEq, Repr

/-- R194: carried out, with a payload. -/
def okWith (payload : List Byte) : Answer := ⟨.ok, payload⟩

/-- R194: a refusal carries an empty payload. -/
def refuse (code : ResultCode) : Answer := ⟨code, []⟩

/-- R191: the conditions under which a frame is dropped. -/
def linkBusy (s : State) : Bool := s.link.executing || !s.link.ready

/-- R191: a frame is dropped. -/
def dropFrame (s : State) : State :=
  s.withLink { s.link with dropped := true, transfer := none }

/-- R192: the reply that would be discarded now was never completely read. -/
def unreadReply (s : State) : Bool := s.link.replyReady

/-- R189, R188: a frame is received and not dropped: the old reply is discarded. -/
def openFrame (s : State) : State :=
  s.withLink { s.link with reply := none, dropped := false, transfer := none }

/-- R190, R192: form a reply in the reply slot. -/
def formReply (tag : Byte) (lost : Bool) (p : State × Answer) : State :=
  p.1.withLink { p.1.link with
    reply := some ⟨⟨tag, p.2.code, lost, p.2.payload⟩, false⟩ }

/-- R188 to R192: a well-formed request frame is received: ignored in reset (R178), dropped while the
link is busy (R191), and else carried out by its block and answered. -/
def serve (tag : Byte) (op : State → State × Answer) (s : State) : State :=
  if s.inReset then s
  else if linkBusy s then dropFrame s
  else formReply tag (unreadReply s) (op (openFrame s))

/-- An event of the carriage or the store: ignored while RESET_N is low (R178). -/
def whenOn (f : State → State) (s : State) : State := if s.inReset then s else f s

end Sys2Proof.Machine
end

