-- ==== Sys2Proof/Machine/Carriers.lean ====
section
/-! DEFINITION. Yarn Carriers (chapter 7): the pins at a needle-step, the catch senses and the carrier
requests. -/

namespace Sys2Proof.Machine

/-! ### Entries of the active plan -/

/-- The entry at an index of the active plan. -/
def State.run? (s : State) (i : Nat) : Option EntryRun :=
  match s.engine.course with
  | some k => k.runs[i]?
  | none => none

/-- R143: the pin's next entry, by index: the first OPEN entry of its system in list order. -/
def nextEntry (k : Course) (sys : Fin 4) : Option (Nat × EntryRun) :=
  (k.runs.zipIdx.find? (fun p =>
    decide (p.1.entry.system = sys) && decide (p.1.status = some .opened))).map (fun p => (p.2, p.1))

/-- R153: the context of a missed catch or a lost carrier. -/
def carrierReport (kind : FaultKind) (s : State) (sys : Fin 4) (carrier : Fin 16) : Report :=
  ⟨kind, none, some sys, none, none, s.engine.course.map (·.tag), carrier.val⟩

/-! ### The pins at a needle-step (R145, R147, R148) -/

/-- What a needle-step asks of a pin. -/
inductive PinEvent where
  | none
  /-- R145: the pin goes down for an entry. -/
  | engage (carrier : Fin 16) (entry : Nat)
  /-- R147: one step of the catch window passes. -/
  | countDown (carrier : Fin 16) (left entry : Nat) (direction : Direction)
  /-- R147: the catch is missed. -/
  | miss (carrier : Fin 16) (entry : Nat)
  /-- R148: the carrier is set down. -/
  | release (carrier : Fin 16) (entry : Nat) (position : Int)
deriving DecidableEq, Repr

/-- R145, R147: what an UP pin does. A pin whose engage point is its release point misses at once. -/
def upEvent (s : State) (k : Course) (sys : Fin 4) : PinEvent :=
  match nextEntry k sys with
  | some (i, r) =>
    if pinPosition s sys k.direction = r.engage then
      if r.engage = r.release then .miss r.entry.carrier i else .engage r.entry.carrier i
    else .none
  | none => .none

/-- The position of a pin is the release point of an entry. -/
def atRelease (s : State) (k : Course) (sys : Fin 4) (i : Nat) : Bool :=
  match k.runs[i]? with
  | some r => decide (pinPosition s sys k.direction = r.release)
  | none => false

/-- R145, R147, R148: what a needle-step in the active direction, already taken, asks of a pin. -/
def pinEvent (s : State) (k : Course) (sys : Fin 4) : PinEvent :=
  match s.pins[sys].state with
  | .up => upEvent s k sys
  | .catching c left i d =>
    if left ≤ 1 || atRelease s k sys i then .miss c i else .countDown c left i d
  | .holding c i _ =>
    if atRelease s k sys i then .release c i (pinPosition s sys k.direction) else .none

/-- R147: a catch is missed: the pin rises, the entry is UNFED, the carrier stays where it rests. -/
def missCatch (s : State) (sys : Fin 4) (carrier : Fin 16) (i : Nat) : State × List Report :=
  (setStatus (setPinState s sys .up) i .unfed, [carrierReport .carrierMissed s sys carrier])

/-- R145, R147, R148: carry out what the step asks of a pin. -/
def doPinEvent (s : State) (sys : Fin 4) : PinEvent → State × List Report
  | .none => (s, [])
  | .engage c i =>
    match s.engine.course with
    | some k => (setPinState s sys (.catching c s.geometry.catchWindow i k.direction), [])
    | none => (s, [])
  | .countDown c left i d => (setPinState s sys (.catching c (left - 1) i d), [])
  | .miss c i => missCatch s sys c i
  | .release c i x =>
    (setStatus (setCarrierState (setPinState s sys .up) c (.resting x)) i .done, [])

/-- R143: one pin at a needle-step in the active direction: what the step, as it finds the part, asks of the
pin is carried out on s. -/
def stepPin (found s : State) (sys : Fin 4) : State × List Report :=
  match found.engine.course with
  | some k => doPinEvent s sys (pinEvent found k sys)
  | none => (s, [])

/-- R143: every pin at a needle-step in the active direction, each by the part as the step finds it. -/
def stepPins (found : State) : State × List Report :=
  (List.finRange 4).foldl
    (fun p sys => ((stepPin found p.1 sys).1, p.2 ++ (stepPin found p.1 sys).2)) (found, [])

/-- R125, R147: the entry whose catch a system's pin misses at this step. -/
def missedEntry (s : State) (k : Course) (sys : Fin 4) : Option Nat :=
  match pinEvent s k sys with
  | .miss _ i => some i
  | _ => none

/-! ### The catch senses (R146, R149) -/

/-- The last sampled level of a catch sense. -/
def setSense (s : State) (pin : Fin 4) (level : Bool) : State :=
  s.withPins (s.pins.set pin { s.pins[pin] with sense := level })

/-- R146: a CATCHING pin takes up its carrier. -/
def takeUp (s : State) (pin : Fin 4) (carrier : Fin 16) (i : Nat) (d : Direction) : State :=
  setStatus (setCarrierState (setPinState s pin (.holding carrier i d)) carrier (.carried pin i))
    i .fed

/-- R149: a HOLDING pin loses its carrier. -/
def loseCarrier (s : State) (pin : Fin 4) (carrier : Fin 16) (i : Nat) : State :=
  takeReports (setStatus (setCarrierState (setPinState s pin .up) carrier .lost) i .unfed)
    [carrierReport .carrierLost s pin carrier]

/-- R146, R149: a rise of a catch sense. -/
def catchRise (pin : Fin 4) (s : State) : State :=
  if s.pins[pin].sense then s
  else
    match s.engine.runState, s.pins[pin].state with
    | .knitting, .catching c _ i d => takeUp (setSense s pin true) pin c i d
    | _, _ => setSense s pin true

/-- R149: a fall of a catch sense. -/
def catchFall (pin : Fin 4) (s : State) : State :=
  if s.pins[pin].sense then
    match s.engine.runState, s.pins[pin].state with
    | .knitting, .holding c i _ => loseCarrier (setSense s pin false) pin c i
    | _, _ => setSense s pin false
  else s

/-- R147: a miss is due: no step of the window is left, or the pin stands at the release point. -/
def missDue (s : State) (k : Course) (pin : Fin 4) (left i : Nat) : Bool :=
  decide (left = 0) || atRelease s k pin i

/-- R147: a missed catch taken on its own. The needle-step that ends a window takes the miss with it, so
one is due here only where a window stands run out (log 11). -/
def carrierMissed (pin : Fin 4) (s : State) : State :=
  match s.engine.runState, s.engine.course, s.pins[pin].state with
  | .knitting, some k, .catching c left i _ =>
    if missDue s k pin left i then
      takeReports (missCatch s pin c i).1 (missCatch s pin c i).2
    else s
  | _, _, _ => s

/-! ### The clearance test (R137) -/

/-- The run of the prepared or active plan that names a carrier. -/
def namingRun (s : State) (c : Fin 16) : Option EntryRun :=
  match s.engine.course with
  | some k => k.runs.find? (fun r => decide (r.entry.carrier = c))
  | none => none

/-- R137: a position passes the clearance test for a carrier. -/
def clearOf (s : State) (c : Fin 16) (x : Int) : Bool :=
  match namingRun s (partnerOf c) with
  | some r => !nearInterval s.geometry.clearance x r.rest r.release
  | none =>
    match s.carriers[partnerOf c].state with
    | .resting y => !nearTo s.geometry.clearance x y
    | .absent | .carried _ _ | .lost => true

/-! ### The carrier requests (R138 to R141) -/

/-- A queued plan has an entry naming the carrier. -/
def Plan.namesCarrier (p : Plan) (c : Fin 16) : Bool :=
  p.entries.any (fun e => decide (e.carrier = c))

/-- R141: the number of plans, queued, prepared or active, that name a carrier. -/
def plansNaming (s : State) (c : Fin 16) : Nat :=
  (s.engine.queue.filter (fun p => p.namesCarrier c)).length + (namingRun s c).isSome.toNat

/-- R139, R140: a carrier is held by a pin or by a plan. -/
def carrierInUse (s : State) (c : Fin 16) : Bool :=
  (match s.carriers[c].state with
   | .carried _ _ => true
   | .absent | .resting _ | .lost => false) || decide (plansNaming s c ≠ 0)

/-- R138: Install Carrier as its block carries it out. -/
def installCarrier (id : Byte) (position : Half) (yarn : Byte) (s : State) : State × Answer :=
  match idOf 16 id with
  | none => (s, refuse .range)
  | some c =>
    if s.carriers[c].state ≠ .absent then (s, refuse .inUse)
    else if !s.geometry.restRange position.toInt then (s, refuse .range)
    else if !clearOf s c position.toInt then (s, refuse .overlap)
    else (s.withCarriers (s.carriers.set c ⟨.resting position.toInt, yarn⟩), okWith [])

/-- R139: Place Carrier as its block carries it out. -/
def placeCarrier (id : Byte) (position : Half) (s : State) : State × Answer :=
  match idOf 16 id with
  | none => (s, refuse .range)
  | some c =>
    if s.carriers[c].state = .absent then (s, refuse .noRecord)
    else if carrierInUse s c then (s, refuse .inUse)
    else if !s.geometry.restRange position.toInt then (s, refuse .range)
    else if !clearOf s c position.toInt then (s, refuse .overlap)
    else (setCarrierState s c (.resting position.toInt), okWith [])

/-- R140: Remove Carrier as its block carries it out. -/
def removeCarrier (id : Byte) (s : State) : State × Answer :=
  match idOf 16 id with
  | none => (s, refuse .range)
  | some c =>
    if s.carriers[c].state = .absent then (s, refuse .noRecord)
    else if carrierInUse s c then (s, refuse .inUse)
    else (s.withCarriers (s.carriers.set c Carrier.reset), okWith [])

/-- R135: the number of a carrier's state in the order of its values. -/
def CarrierState.number : CarrierState → Nat
  | .absent => 0
  | .resting _ => 1
  | .carried _ _ => 2
  | .lost => 3

/-- R141, R143: where a carrier stands, none where it has no position. -/
def carrierPosition (s : State) (c : Fin 16) : Option Int :=
  match s.carriers[c].state with
  | .resting x => some x
  | .carried pin _ => s.engine.course.map (fun k => pinPosition s pin k.direction)
  | .absent | .lost => none

/-- R141, R195: the payload of a Read Carrier reply, the rail in one byte (log 17). -/
def carrierBytes (s : State) (c : Fin 16) : List Byte :=
  [byteN c.val, byteN (c.val / 2), byteN s.carriers[c].state.number] ++
  optField2 ((carrierPosition s c).map bytesInt) ++
  (match s.carriers[c].state with
   | .carried pin i =>
     [1, byteN pin.val, byteN i, (s.engine.course.map (·.tag)).getD 0]
   | .absent | .resting _ | .lost => [0, 0, 0, 0]) ++
  [s.carriers[c].yarn, byteN (plansNaming s c)]

/-- R141: Read Carrier as its block carries it out. -/
def readCarrier (id : Byte) (s : State) : State × Answer :=
  match idOf 16 id with
  | none => (s, refuse .range)
  | some c => (s, okWith (carrierBytes s c))

/-! ### The commands -/

/-- INSTALL_CARRIER (R138). -/
def execInstallCarrier (tag id : Byte) (position : Half) (yarn : Byte) (s : State) : Outcome :=
  .next (serve tag (installCarrier id position yarn) s)

/-- PLACE_CARRIER (R139). -/
def execPlaceCarrier (tag id : Byte) (position : Half) (s : State) : Outcome :=
  .next (serve tag (placeCarrier id position) s)

/-- REMOVE_CARRIER (R140). -/
def execRemoveCarrier (tag id : Byte) (s : State) : Outcome :=
  .next (serve tag (removeCarrier id) s)

/-- READ_CARRIER (R141). -/
def execReadCarrier (tag id : Byte) (s : State) : Outcome :=
  .next (serve tag (readCarrier id) s)

/-- CATCH_RISE (R146). -/
def execCatchRise (pin : Fin 4) (s : State) : Outcome := .next (whenOn (catchRise pin) s)

/-- CATCH_FALL (R149). -/
def execCatchFall (pin : Fin 4) (s : State) : Outcome := .next (whenOn (catchFall pin) s)

/-- CARRIER_MISSED (R147). -/
def execCarrierMissed (pin : Fin 4) (s : State) : Outcome := .next (whenOn (carrierMissed pin) s)

end Sys2Proof.Machine
end

