-- ==== Sys2Proof/Machine/Channels.lean ====
section
/-! DEFINITION. Selection Channels (chapter 6): what a needle-step and a completed fetch do to a channel,
and Force Outputs. Filling a queue stands in Ops.lean, since the store port waits on it. -/

namespace Sys2Proof.Machine

/-! ### Applying decisions (R124 to R126) -/

/-- R115: a needle number lies between the ends of a span. -/
def insideSpan (d : Direction) (sp : Span) (n : Int) : Bool :=
  atOrBefore d sp.first n && atOrBefore d n sp.last

/-- R128: the coil state that a decision asks for. -/
def Decision.coil : Decision → Coil
  | .knit => .knit
  | .tuck => .tuck
  | .miss => .off

/-- R125: the status of an entry is UNFED as the channel reads it; `missed` is the entry whose catch
counts as missed already. -/
def entryUnfed (k : Course) (missed : Option Nat) (i : Nat) : Bool :=
  decide (missed = some i) ||
  (match k.runs[i]? with
   | some r => decide (r.status = some .unfed)
   | none => false)

/-- R125: the coil state driven for a removed decision. -/
def drivenCoil (k : Course) (missed : Option Nat) (q : Queued) : Coil :=
  match q.entry with
  | some i => if entryUnfed k missed i then .off else q.decision.coil
  | none => q.decision.coil

/-- R126: the context of an underrun. -/
def underrunReport (k : Course) (bed : Bed) (sys : Fin 4) (n : Nat) : Report :=
  ⟨.underrun, none, some sys, some bed, some n, some k.tag, 0⟩

/-- R126: an underrun at needle n: MISS is driven and the next needle moves past n. -/
def underrun (s : State) (k : Course) (bed : Bed) (sys : Fin 4) (sp : Span) (n : Nat) : State :=
  let p := moveNext s k bed sys sp n ({ s.channel bed sys with coil := .off }, k.runs)
  setRuns (setChannel s bed sys p.1) p.2

/-- R124 to R126: one channel at a needle-step in the active direction. A head that is not for the
needle under the point is left, with the coils off (log 26). -/
def applyChannel (s : State) (k : Course) (bed : Bed) (sys : Fin 4) (missed : Option Nat) :
    State × List Report :=
  let ch := s.channel bed sys
  let off := setChannel s bed sys { ch with coil := .off }
  match ch.span with
  | none => (off, [])
  | some sp =>
    let n := pointNeedle s k bed sys
    if insideSpan k.direction sp n then
      match ch.queue with
      | [] => (underrun s k bed sys sp n.toNat, [underrunReport k bed sys n.toNat])
      | q :: rest =>
        if (q.needle : Int) = n then
          (setChannel s bed sys { ch with queue := rest, coil := drivenCoil k missed q }, [])
        else (off, [])
    else (off, [])

/-- R124: every channel at a needle-step; `missed` gives the entry whose catch counts as missed for a
channel. -/
def applyChannels (s : State) (missed : Bed → Fin 4 → Option Nat) : State × List Report :=
  allChannels.foldl
    (fun p c =>
      match p.1.engine.course with
      | some k =>
        let a := applyChannel p.1 k c.1 c.2 (missed c.1 c.2)
        (a.1, p.2 ++ a.2)
      | none => p)
    (s, [])

/-- R127: every coil pair off and every queue as it stands. -/
def coilsOff (s : State) : State :=
  (s.withFront (s.front.map (fun ch => { ch with coil := .off }))).withBack
    (s.back.map (fun ch => { ch with coil := .off }))

/-! ### A completed fetch (R120, R121, R133) -/

/-- R123: a needle is reached by a front channel's point. -/
def reached (s : State) (k : Course) (sys : Fin 4) (n : Nat) : Bool :=
  decide (s.engine.runState = .knitting) &&
    atOrBefore k.direction n (pointNeedle s k .front sys)

/-- R13, R120: the segment of a fetch, the needles from the start needle whose pixels lie in the word. -/
def segment (z : ZonePart) (t : Tile) (d : Direction) (f : Fetch) : List Nat :=
  (passRange d f.start (z.given.farEdge d)).takeWhile (fun n => decide (z.wordOf t n = f.word))

/-- R14 to R18: the ruling for a needle of the segment. -/
def segmentRuling (z : ZonePart) (t : Tile) (slot : Fin 8) (data : BitVec 64) (good : Bool)
    (count n : Nat) : Ruling :=
  if good then frontRuling z.given slot count (pixelAt data (z.nibbleOf t n))
  else fallbackRuling count

/-- R120: queue the decisions of the needles in order until the queue is full. -/
def queueSegment (s : State) (k : Course) (sys : Fin 4) (sp : Span) (z : ZonePart) (t : Tile)
    (i : Nat) (slot : Fin 8) (data : BitVec 64) (good : Bool) :
    List Nat → Nat → Channel × List EntryRun → Channel × List EntryRun
  | [], _, p => p
  | n :: rest, count, p =>
    if queueLimit ≤ p.1.queue.length then p
    else
      let r := segmentRuling z t slot data good count n
      let runs := p.2.modify i (fun e => { e with floatCount := r.floatCount })
      queueSegment s k sys sp z t i slot data good rest r.floatCount
        (pushDecision s k .front sys sp ⟨n, r.decision, r.origin, some i⟩ (p.1, runs))

/-- R121: the context of a fetch that failed its check. -/
def parityReport (k : Course) (sys : Fin 4) (f : Fetch) : Report :=
  ⟨.parity, none, some sys, some .front, some f.start, some k.tag, 0⟩

/-- R120, R121: a front preparer's fetch completes with its word and outcome. -/
def completeFetch (s : State) (sys : Fin 4) (data : BitVec 64) (good : Bool) : State × List Report :=
  let ch := s.front[sys]
  match s.engine.course, ch.fetch, ch.span with
  | some k, some f, some sp =>
    let waiting := { ch with fetch := none, preparer := .filling }
    let reports := if good then [] else [parityReport k sys f]
    match entryAt s k .front sys f.start with
    | none => (setChannel s .front sys waiting, reports)
    | some (i, r) =>
      match s.part? r.entry.zone, (s.part? r.entry.zone).bind (fun z => s.tile? z.given.tile) with
      | some z, some t =>
        let needles := (segment z t k.direction f).filter (fun n => !reached s k sys n)
        let p := queueSegment s k sys sp z t i r.entry.slot data good needles r.floatCount
          (waiting, k.runs)
        (setRuns (setChannel s .front sys p.1) p.2, reports)
      | _, _ => (setChannel s .front sys waiting, reports)
  | _, _, _ => (setChannel s .front sys { ch with fetch := none }, [])

/-! ### Spans (R115, R116) -/

/-- R115: the entries that name a system, in list order. -/
def entriesOf (sys : Fin 4) (runs : List EntryRun) : List EntryRun :=
  runs.filter (fun r => decide (r.entry.system = sys))

/-- The given fields of an entry's zone. -/
def zoneOf (s : State) (e : Entry) : Option ZoneFields := (s.part? e.zone).map (·.given)

/-- R115: the front span of a system. -/
def frontSpan (s : State) (d : Direction) (rs : List EntryRun) : Option Span :=
  match rs.head?, rs.getLast? with
  | some a, some b =>
    match zoneOf s a.entry, zoneOf s b.entry with
    | some za, some zb => some ⟨za.nearEdge d, zb.farEdge d⟩
    | _, _ => none
  | _, _ => none

/-- R115: the back span under a racking: the needles of the shifted front span that exist. -/
def backSpan (bedWidth : Nat) (racking : Int) (d : Direction) (sp : Span) : Option Span :=
  let first := (sp.first : Int) - racking
  let last := (sp.last : Int) - racking
  match d with
  | .right =>
    if max first 0 ≤ min last (bedWidth - 1) then
      some ⟨(max first 0).toNat, (min last (bedWidth - 1)).toNat⟩
    else none
  | .left =>
    if max last 0 ≤ min first (bedWidth - 1) then
      some ⟨(min first (bedWidth - 1)).toNat, (max last 0).toNat⟩
    else none

/-- R116: a channel takes a span. -/
def Channel.takeSpan (ch : Channel) (sp : Option Span) : Channel :=
  match sp with
  | some sp => { ch with span := some sp, preparer := .filling, next := .at sp.first }
  | none => ch

/-- R88, R116: the channels of one system take their spans from the prepared plan. -/
def takeSpans (s : State) (k : Course) (sys : Fin 4) : State :=
  match frontSpan s k.direction (entriesOf sys k.runs) with
  | none => s
  | some sp =>
    setChannel (setChannel s .front sys (s.front[sys].takeSpan (some sp))) .back sys
      (s.back[sys].takeSpan (backSpan s.geometry.bedWidth k.racking k.direction sp))

/-! ### Forces (R129, R130) -/

/-- R130: a channel without its force, its pair off. -/
def Channel.released (ch : Channel) : Channel := { ch with force := none, coil := .off }

/-- R130: a pin without its force. -/
def Pin.released (p : Pin) : Pin := { p with force := none }

/-- R130: every force is cleared. -/
def clearForces (s : State) : State :=
  ((s.withFront (s.front.map Channel.released)).withBack (s.back.map Channel.released)).withPins
    (s.pins.map Pin.released)

/-- R129, R195: what Force Outputs names. -/
inductive ForceTarget where
  | coil (bed : Bed) (system : Fin 4) (value : Coil)
  | pin (system : Fin 4) (value : PinForce)
deriving DecidableEq, Repr

/-- R196: the bed of a Force Outputs payload. -/
def bedOf (b : Byte) : Option Bed :=
  if b = 0 then some .front else if b = 1 then some .back else none

/-- R196: the value for a coil pair. -/
def coilOf (b : Byte) : Option Coil :=
  if b = 0 then some .off else if b = 1 then some .knit else if b = 2 then some .tuck else none

/-- R196: the value for a pin. -/
def pinForceOf (b : Byte) : Option PinForce :=
  if b = 0 then some .up else if b = 1 then some .down else none

/-- R129: the RANGE check of Force Outputs. A pin's bed byte is 0 (R196, log 21). -/
def forceTargetOf (g : Geometry) (target system bed value : Byte) : Option ForceTarget :=
  match idOf 4 system with
  | none => none
  | some sys =>
    if sys.val < g.systems then
      if target = 0 then
        match bedOf bed, coilOf value with
        | some b, some v => some (.coil b sys v)
        | _, _ => none
      else if target = 1 then
        if bed = 0 then (pinForceOf value).map (.pin sys) else none
      else none
    else none

/-- R129: set a force and drive the output from it. -/
def applyForce (s : State) : ForceTarget → State
  | .coil bed sys v => setChannel s bed sys { s.channel bed sys with force := some v, coil := v }
  | .pin sys v => s.withPins (s.pins.set sys { s.pins[sys] with force := some v })

/-- R129: Force Outputs as its block carries it out. -/
def forceOutputs (target system bed value : Byte) (s : State) : State × Answer :=
  if s.engine.runState ≠ .setup then (s, refuse .state)
  else
    match forceTargetOf s.geometry target system bed value with
    | some f => (applyForce s f, okWith [])
    | none => (s, refuse .range)

/-- FORCE_OUTPUTS (R129). -/
def execForceOutputs (tag target system bed value : Byte) (s : State) : Outcome :=
  .next (serve tag (forceOutputs target system bed value) s)

end Sys2Proof.Machine
end

