-- ==== Sys2Proof/Machine/CourseEngine.lean ====
section
/-! DEFINITION. The Course Engine (chapter 4): the checks of a plan, preparation, activation, completion and
what each run state makes of a needle-step, with the requests of the chapter. The row advance that a
completion runs on the zones (R59 to R61) stands here too. -/

namespace Sys2Proof.Machine

/-! ### Points of an entry (R85, R86, R144) -/

/-- R85, R144: the engage point for a carrier that rests at x. -/
def engagePoint (g : Geometry) (d : Direction) (x : Int) : Int :=
  match d with
  | .right => x - g.engageLead
  | .left => x + g.engageLead

/-- R85, R144: the release point beyond a zone. -/
def releasePoint (g : Geometry) (d : Direction) (z : ZoneFields) : Int :=
  match d with
  | .right => z.right + g.overshoot
  | .left => z.left - g.overshoot

/-- R135: where a RESTING carrier rests. -/
def CarrierState.rest? : CarrierState → Option Int
  | .resting x => some x
  | .absent | .carried _ _ | .lost => none

/-- R135: the rest position of a carrier. -/
def restOf (s : State) (c : Fin 16) : Option Int := s.carriers[c].state.rest?

/-- R85: an entry's carrier stands here as the checks read it (0 where it does not rest, which
CARRIER_STATE has refused before any check reads it). -/
def restAt (s : State) (e : Entry) : Int := (restOf s e.carrier).getD 0

/-- R85: the release point of an entry (0 where its zone has no current part, which ZONE_STATE has
refused before any check reads it). -/
def releaseAt (s : State) (d : Direction) (e : Entry) : Int :=
  match zoneOf s e with
  | some z => releasePoint s.geometry d z
  | none => 0

/-- R85: the engage point of an entry. -/
def engageAt (s : State) (d : Direction) (e : Entry) : Int :=
  engagePoint s.geometry d (restAt s e)

/-! ### The checks of preparation (R83 to R86) -/

/-- R83: the reasons of PLAN_INVALID. -/
inductive PlanReason where
  | zoneState
  | slotRange
  | slotRepeat
  | entryOrder
  | carrierState
  | carrierPlace
  | pinOverlap
  | railConflict
  | railUnknown
  | endShort
  | positionUnreferenced
  | lateStart
deriving DecidableEq, Repr

/-- R83: the detail code of a reason. -/
def PlanReason.code : PlanReason → Nat
  | .zoneState => 1
  | .slotRange => 2
  | .slotRepeat => 3
  | .entryOrder => 4
  | .carrierState => 5
  | .carrierPlace => 6
  | .pinOverlap => 7
  | .railConflict => 8
  | .railUnknown => 9
  | .endShort => 10
  | .positionUnreferenced => 11
  | .lateStart => 12

/-- R87, R90: why a plan fails, with the system given in the context. -/
structure Rejection where
  reason : PlanReason
  system : Option (Fin 4)
deriving DecidableEq, Repr

/-- The first entry in list order that a test finds bad; the test sees the entries before it (log 22). -/
def firstBad (bad : List Entry → Entry → Bool) : List Entry → List Entry → Option Entry
  | _, [] => none
  | earlier, e :: rest => if bad earlier e then some e else firstBad bad (earlier ++ [e]) rest

/-- R83: one check made over every entry in list order. -/
def entryCheck (reason : PlanReason) (p : Plan) (bad : List Entry → Entry → Bool) :
    Option Rejection :=
  (firstBad bad [] p.entries).map (fun e => ⟨reason, some e.system⟩)

/-- R84: the zone is not LIVE. -/
def notLive (s : State) (e : Entry) : Bool :=
  match s.zone? e.zone with
  | some (.live _ _) => false
  | some (.pending _) | some (.retiring _ _) | none => true

/-- R84: the slot is not below the zone's k. -/
def slotTooHigh (s : State) (e : Entry) : Bool :=
  match zoneOf s e with
  | some z => decide (z.colours ≤ e.slot.val)
  | none => false

/-- R84: the slot is served already, or an earlier entry names it for the same zone. -/
def slotRepeated (s : State) (earlier : List Entry) (e : Entry) : Bool :=
  (match s.part? e.zone with
   | some z => z.served.getLsbD e.slot.val
   | none => false) ||
  earlier.any (fun f => decide (f.zone = e.zone) && decide (f.slot = e.slot))

/-- R84: the zone does not lie beyond that of every earlier entry of the system. -/
def outOfOrder (s : State) (d : Direction) (earlier : List Entry) (e : Entry) : Bool :=
  earlier.any (fun f =>
    decide (f.system = e.system) &&
    match zoneOf s f, zoneOf s e with
    | some zf, some ze => !before d (zf.farEdge d) (ze.nearEdge d)
    | _, _ => false)

/-- R85: the carrier is not RESTING. -/
def carrierNotResting (s : State) (e : Entry) : Bool := (restOf s e.carrier).isNone

/-- R85: the carrier rests beyond the zone's near edge. -/
def carrierMisplaced (s : State) (d : Direction) (e : Entry) : Bool :=
  match zoneOf s e with
  | some z => !atOrBefore d (restAt s e) (z.nearEdge d)
  | none => false

/-- R85: the engage point does not lie beyond the release point of the system's entry before it. -/
def pinOverlaps (s : State) (d : Direction) (earlier : List Entry) (e : Entry) : Bool :=
  match (earlier.filter (fun f => decide (f.system = e.system))).getLast? with
  | some f => !before d (releaseAt s d f) (engageAt s d e)
  | none => false

/-- R85: the RESTING rail partner lies within C needles of the travel interval. -/
def railConflicts (s : State) (d : Direction) (e : Entry) : Bool :=
  match restOf s (partnerOf e.carrier) with
  | some y => nearInterval s.geometry.clearance y (restAt s e) (releaseAt s d e)
  | none => false

/-- R85: the rail partner is LOST. -/
def partnerLost (s : State) (e : Entry) : Bool :=
  decide (s.carriers[partnerOf e.carrier].state = .lost)

/-- The entries of a plan that name a system, in list order. -/
def Plan.entriesFor (p : Plan) (sys : Fin 4) : List Entry :=
  p.entries.filter (fun e => decide (e.system = sys))

/-- R86: the pin limit and the two point limits of a system, none where it has no entry. -/
def limitsOf (s : State) (p : Plan) (sys : Fin 4) : List Int :=
  match (p.entriesFor sys).getLast? with
  | none => []
  | some e =>
    let far : Int := match zoneOf s e with
      | some z => z.farEdge p.direction
      | none => 0
    [releaseAt s p.direction e - s.geometry.pinOffsetOf sys p.direction,
     far - s.geometry.pointOffsetOf .front sys p.direction,
     far - s.geometry.pointOffsetOf .back sys p.direction]

/-- R86: the end position does not lie beyond every limit of the plan. -/
def endShort (s : State) (p : Plan) : Bool :=
  (List.finRange 4).any (fun sys =>
    (limitsOf s p sys).any (fun l => !before p.direction l p.endPosition))

/-- R83: the checks of preparation, in their order; the first failure ends them. -/
def preparationCheck (s : State) (p : Plan) : Option Rejection :=
  ((entryCheck .zoneState p (fun _ => notLive s)).or
  ((entryCheck .slotRange p (fun _ => slotTooHigh s)).or
  ((entryCheck .slotRepeat p (slotRepeated s)).or
  ((entryCheck .entryOrder p (outOfOrder s p.direction)).or
  ((entryCheck .carrierState p (fun _ => carrierNotResting s)).or
  ((entryCheck .carrierPlace p (fun _ => carrierMisplaced s p.direction)).or
  ((entryCheck .pinOverlap p (pinOverlaps s p.direction)).or
  ((entryCheck .railConflict p (fun _ => railConflicts s p.direction)).or
  ((entryCheck .railUnknown p (fun _ => partnerLost s)).or
  (if endShort s p then some ⟨.endShort, none⟩ else none))))))))))

/-! ### Preparation (R87, R88) -/

/-- R88, R144: what the part keeps with an entry of the prepared plan. -/
def runOf (s : State) (p : Plan) (e : Entry) : EntryRun where
  entry := e
  rest := restAt s e
  engage := engageAt s p.direction e
  release := releaseAt s p.direction e
  ordinal := ordinalOf p.entries e
  floatCount := 0
  status := none

/-- R88: the plan as the prepared plan. -/
def courseOf (s : State) (p : Plan) : Course where
  tag := p.tag
  direction := p.direction
  racking := p.racking
  endPosition := p.endPosition
  runs := p.entries.map (runOf s p)

/-- R88: the plan becomes the prepared plan and the channels take their spans. -/
def takePlan (s : State) (p : Plan) : State :=
  let k := courseOf s p
  (List.finRange 4).foldl (fun s sys => takeSpans s k sys)
    (s.withEngine { s.engine with runState := .prepared, course := some k })

/-- R87, R90: the context of a PLAN_INVALID. -/
def planReport (tag : Byte) (r : Rejection) : Report :=
  ⟨.planInvalid, none, r.system, none, none, some tag, r.reason.code⟩

/-- R87, R90: a plan fails: the occurrence, and the course abort that drops every plan. -/
def failPlan (s : State) (tag : Byte) (r : Rejection) : State := takeReports s [planReport tag r]

/-- R83, R87, R88: prepare a plan. -/
def prepare (s : State) (p : Plan) : State :=
  match preparationCheck s p with
  | some r => failPlan s p.tag r
  | none => takePlan s p

/-! ### The row advance (R59 to R61) -/

/-- R60: every slot below k is served. -/
def servedFull (served : BitVec 8) (colours : Nat) : Bool :=
  (List.range 8).all (fun i => decide (colours ≤ i) || served.getLsbD i)

/-- R60: the repeat step of a zone whose served set is full. -/
def repeatStep (z : ZonePart) (width height : Nat) : ZonePart :=
  if z.repeatIndex + 1 = z.given.repeats then
    if z.given.row + 1 = height then
      { z with
        served := 0, repeatIndex := 0, given := { z.given with row := 0 }
        effective := (floorMod (z.effective + z.given.shift) width).toNat }
    else { z with served := 0, repeatIndex := 0, given := { z.given with row := z.given.row + 1 } }
  else { z with served := 0, repeatIndex := z.repeatIndex + 1 }

/-- R59: a served set with further slots. -/
def addSlots (served : BitVec 8) (slots : List (Fin 8)) : BitVec 8 :=
  slots.foldl (fun b i => b ||| ((1 : BitVec 8) <<< i.val)) served

/-- R59 to R61: the row advance of one zone, given the slots of its DONE entries. -/
def advancePart (z : ZonePart) (width height : Nat) (done : List (Fin 8)) : ZonePart :=
  let added := { z with served := addSlots z.served done }
  let stepped := if servedFull added.served z.given.colours then repeatStep added width height
    else added
  { stepped with backingCounter := stepped.backingCounter + BitVec.ofNat 8 done.length }

/-- R59: the slots of the DONE entries of a zone. -/
def doneSlots (k : Course) (i : Fin 32) : List (Fin 8) :=
  (k.runs.filter (fun r => decide (r.entry.zone = i) && decide (r.status = some .done))).map
    (·.entry.slot)

/-- R59: an entry of the plan names the zone. -/
def Course.namesZone (k : Course) (i : Fin 32) : Bool :=
  k.runs.any (fun r => decide (r.entry.zone = i))

/-- R59: the current part of a zone replaced. -/
def Zone.withCurrent (z : Zone) (c : ZonePart) : Zone :=
  match z with
  | .pending f => .pending f
  | .live _ p => .live c p
  | .retiring _ p => .retiring c p

/-- R59: the row advance of one zone at a completion. -/
def advanceZone (k : Course) (s : State) (i : Fin 32) : State :=
  if k.namesZone i then
    match s.zone? i with
    | some z =>
      match z.current? with
      | some c => setZone s i (some (z.withCurrent (advancePart c (s.widthOf c.given.tile)
          (s.heightOf c.given.tile) (doneSlots k i))))
      | none => s
    | none => s
  else s

/-- R59: the row advance of every zone that the completing plan names. -/
def rowAdvance (s : State) (k : Course) : State := (List.finRange 32).foldl (advanceZone k) s

/-! ### Completion (R91, R92) -/

/-- R91: the Course Engine's part of a completion, the run state left as READY. -/
def closeCourse (s : State) (k : Course) : State :=
  setCourseDone (s.withEngine { s.engine with
    courseNumber := s.engine.courseNumber + 1
    expected := some (opposite k.direction)
    course := none
    runState := .ready })

/-- R92: turn to the queue: prepare the head plan, if there is one. -/
def turnToQueue (s : State) : State :=
  match s.engine.queue with
  | [] => s
  | p :: rest => prepare (s.withEngine { s.engine with queue := rest }) p

/-- R36, R163: the free store port may be granted before what an event has still to take (log 31). -/
def grantEarly (s : State) : State := if Config.grantBeforeStop s.freeCount then pump s else s

/-- R107: apply a pending correction and take the occurrence it may report. A plan prepared at the same
completion may have the free store port granted to it before a stop of that occurrence (R116, R163, log 31). -/
def correctPosition (s : State) : State :=
  takeReports (grantEarly (applyCorrection s).1) (applyCorrection s).2

/-- R59, R62, R91, R92, R107, R116: a course completes. -/
def completeCourse (s : State) (k : Course) : State :=
  let advanced := applyPendingParts (rowAdvance s k)
  correctPosition (turnToQueue (closeCourse (giveUpChannels advanced) k))

/-! ### Activation (R90) -/

/-- R90: LATE_START fails for a system: its pin or one of its points is not behind the place it first
acts on. -/
def lateFor (s : State) (k : Course) (sys : Fin 4) : Bool :=
  match (entriesOf sys k.runs).head? with
  | none => false
  | some r =>
    let near : Int := match zoneOf s r.entry with
      | some z => z.nearEdge k.direction
      | none => 0
    !before k.direction (pinPosition s sys k.direction) r.engage ||
    !before k.direction (pointPosition s .front sys k.direction) near ||
    !before k.direction (pointPosition s .back sys k.direction) near

/-- R90: the checks of activation, in their order. -/
def activationCheck (s : State) (k : Course) : Option Rejection :=
  if !s.tracker.referenced then some ⟨.positionUnreferenced, none⟩
  else
    match (List.finRange 4).find? (lateFor s k) with
    | some sys => some ⟨.lateStart, some sys⟩
    | none =>
      if before k.direction s.tracker.position k.endPosition then none else some ⟨.lateStart, none⟩

/-- R90: the plan with every entry OPEN. -/
def Course.opened (k : Course) : Course :=
  { k with runs := k.runs.map (fun r => { r with status := some .opened }) }

/-- R90: the activating needle-step. -/
def activate (s : State) (k : Course) : State :=
  match activationCheck s k with
  | some r => failPlan s k.tag r
  | none => s.withEngine { s.engine with runState := .knitting, course := some k.opened }

/-! ### A needle-step in KNITTING (R91, R93, R110, R124, R143) -/

/-- R110: OVERSPEED at a needle-step that found KNITTING. -/
def overspeed (s : State) : State × List Report :=
  if s.tracker.slow && !s.tracker.overspeedReported then
    (s.withTracker { s.tracker with overspeedReported := true },
      [⟨.overspeed, none, none, none, none, s.engine.course.map (·.tag), 0⟩])
  else (s, [])

/-- R125: the entry that a channel's apply finds missed at this very step, by the open order of the pin's
miss and the apply (log 12). -/
def missedFor (s : State) (k : Course) (bed : Bed) (sys : Fin 4) : Option Nat :=
  if Config.missBeforeApply s.freeCount (match bed with | .front => 0 | .back => 1) sys then
    missedEntry s k sys
  else none

/-- R124, R143: the channels and pins at a needle-step in the active direction. -/
def moveCourse (s : State) (k : Course) : State × List Report :=
  let a := applyChannels s (missedFor s k)
  let b := stepPins a.1
  (b.1.bumpFree, a.2 ++ b.2)

/-- R91, R95: a completion, where the step has brought c to the end position and the course still runs. -/
def completeIfDue (s : State) : State :=
  match s.engine.runState, s.engine.course with
  | .knitting, some k => if s.tracker.position = k.endPosition then completeCourse s k else s
  | _, _ => s

/-- R95, R163: the occurrences of a needle-step, with its completion at a place among them that is left open
(log 13). -/
def settleStep (s : State) (reports : List Report) : State :=
  let ordered := arrange s.freeCount reports
  let n := Config.takenBeforeCompletion s.freeCount
  takeReports (grantEarly (completeIfDue (takeReports s.bumpFree (ordered.take n)))) (ordered.drop n)

/-- R36, R163: take the occurrences of an event; the store port is granted before or after. -/
def grantAndTake (s : State) (take : State → State) : State := pump (take (grantEarly s))

/-- R110, R126, R153: the occurrences of a needle-step carry c as the step has left it. -/
def stepReports (s : State) (reports : List Report) : List Report :=
  reports.map (·.at s.tracker.position)

/-- R91, R110, R124, R143: a needle-step in the active direction. -/
def courseStep (s : State) (k : Course) : State :=
  let o := overspeed s
  let m := moveCourse o.1 k
  grantAndTake m.1 (fun s' => settleStep s' (stepReports s (o.2 ++ m.2)))

/-- R93: the occurrence of a reversal. -/
def reversalReport (k : Course) : Report := ⟨.reversal, none, none, none, none, some k.tag, 0⟩

/-- R93, R127: a needle-step against the active direction. -/
def reversalStep (s : State) (k : Course) : State :=
  let o := overspeed s
  takeReports (coilsOff o.1) (stepReports s (o.2 ++ [reversalReport k]))

/-! ### What a needle-step does in each run state -/

/-- R94: the occurrence of a pass begun with no plan. -/
def starvedReport : Report := Report.plain .planStarved 0

/-- R69, R89, R93, R94: the Course Engine, the channels and the pins at a needle-step. -/
def courseNeedleStep (d : Direction) (s : State) : State :=
  match s.engine.runState with
  | .setup | .held => s
  | .ready => if s.engine.expected = some d then takeReports s [starvedReport] else s
  | .prepared =>
    match s.engine.course with
    | some k => if k.direction = d then activate s k else s
    | none => s
  | .knitting =>
    match s.engine.course with
    | some k => if k.direction = d then courseStep s k else reversalStep s k
    | none => s

/-! ### Queue Course (R80 to R82) -/

/-- R80: the run states that take plans. -/
def RunState.takesPlans : RunState → Bool
  | .ready | .prepared | .knitting => true
  | .setup | .held => false

/-- R81: the direction agrees with the sequence of directions. -/
def directionAgrees (e : Engine) (d : Direction) : Bool :=
  match e.queue.getLast?, e.course, e.expected with
  | some p, _, _ => decide (d = opposite p.direction)
  | none, some k, _ => decide (d = opposite k.direction)
  | none, none, some x => decide (d = x)
  | none, none, none => true

/-- R80: an entry's zone place holds a zone not retiring, and its carrier is not ABSENT. -/
def recordsExist (s : State) (e : Entry) : Bool :=
  (match s.zone? e.zone with
   | some z => !z.isRetiring
   | none => false) && decide (s.carriers[e.carrier].state ≠ .absent)

/-- R80: two entries do not conflict: carriers of two rails, and no zone twice for one system. -/
def entriesAgree (e f : Entry) : Bool :=
  decide (e.carrier.val / 2 ≠ f.carrier.val / 2) &&
    !(decide (e.system = f.system) && decide (e.zone = f.zone))

/-- R80: the entries do not conflict among themselves. -/
def entriesOrdered (p : Plan) : Bool :=
  decide (p.entries.Pairwise (fun e f => entriesAgree e f = true)) &&
    (List.finRange 4).all (fun sys => decide ((p.entriesFor sys).length ≤ 8))

/-- R80: the checks after RANGE. -/
def queueCheck (s : State) (p : Plan) : Option ResultCode :=
  if !directionAgrees s.engine p.direction then some .direction
  else if !p.entries.all (recordsExist s) then some .noRecord
  else if !entriesOrdered p then some .order
  else none

/-- R82: a plan taken in READY is prepared at once; the payload gives the outcome (R195). -/
def prepareNow (s : State) (p : Plan) : State × Answer :=
  match preparationCheck s p with
  | some r => (failPlan s p.tag r, okWith [2, byteN r.reason.code])
  | none => (pump (takePlan s p), okWith [1, 0])

/-- R82: an accepted plan. -/
def acceptPlan (s : State) (p : Plan) : State × Answer :=
  if s.engine.runState = .ready then prepareNow s p
  else
    (s.withEngine { s.engine with queue := s.engine.queue ++ [p] },
      okWith [0, byteN (s.engine.queue.length + 1)])

/-- R80: Queue Course as its block carries it out. -/
def queueCourse (payload : PlanPayload) (s : State) : State × Answer :=
  if !s.engine.runState.takesPlans then (s, refuse .state)
  else if 4 ≤ s.engine.queue.length then (s, refuse .full)
  else
    match planOf s.geometry payload with
    | none => (s, refuse .range)
    | some p =>
      match queueCheck s p with
      | some code => (s, refuse code)
      | none => acceptPlan s p

/-! ### The other requests (R70 to R74, R96) -/

/-- R70: Begin Run as its block carries it out. -/
def beginRun (s : State) : State × Answer :=
  if s.engine.runState ≠ .setup then (s, refuse .state)
  else if s.faults.haltAsserted then (s, refuse .state)
  else
    ((clearForces s).withEngine { s.engine with runState := .ready, expected := none }, okWith [])

/-- R71, R109: End Run as its block carries it out. SLOW is released on the entry to SETUP. -/
def endRun (s : State) : State × Answer :=
  match s.engine.runState with
  | .ready | .held =>
    ((s.withEngine { s.engine with runState := .setup }).withTracker
      { s.tracker with slow := false, overspeedReported := false }, okWith [])
  | .setup | .prepared | .knitting => (s, refuse .state)

/-- R72: a fault record is present with its stopped flag set. -/
def stoppedRecord (f : FaultBlock) : Bool :=
  f.records.toList.any (fun r =>
    match r with
    | some r => r.stopped
    | none => false)

/-- R72: Resume as its block carries it out. -/
def resume (s : State) : State × Answer :=
  if s.engine.runState ≠ .held then (s, refuse .state)
  else if s.faults.haltAsserted then (s, refuse .state)
  else if stoppedRecord s.faults then (s, refuse .state)
  else (s.withEngine { s.engine with runState := .ready, expected := none }, okWith [])

/-- R73: Abort Course as its block carries it out. -/
def abortCourse (s : State) : State × Answer :=
  if s.engine.runState.abortable then (courseAbort s, okWith []) else (s, refuse .state)

/-- R74: Drop Plans as its block carries it out. -/
def dropPlans (s : State) : State × Answer :=
  match s.engine.runState with
  | .setup | .held => (s, refuse .state)
  | .ready => (s, okWith [0])
  | .knitting =>
    (s.withEngine { s.engine with queue := [] }, okWith [byteN s.engine.queue.length])
  | .prepared =>
    (applyPendingParts ((giveUpChannels s).withEngine
      { s.engine with runState := .ready, course := none, queue := [] }),
      okWith [byteN (s.engine.queue.length + 1)])

/-- R200: the number of a run state. -/
def RunState.number : RunState → Nat
  | .setup => 0
  | .ready => 1
  | .prepared => 2
  | .knitting => 3
  | .held => 4

/-- R96, R195: the number of an expected direction, none, RIGHT or LEFT. -/
def expectedNumber : Option Direction → Nat
  | none => 0
  | some .right => 1
  | some .left => 2

/-- R150, R195: the number of an entry status. -/
def EntryStatus.number : EntryStatus → Nat
  | .opened => 0
  | .fed => 1
  | .done => 2
  | .unfed => 3

/-- R96, R195: the entry statuses, given while the plan is active (log 18). -/
def statusBytes (active : Bool) (runs : List EntryRun) : List Byte :=
  byteFlag active ::
    runs.map (fun r => match active, r.status with
      | true, some st => byteN st.number
      | _, _ => 0)

/-- R96, R195: the plan fields of Read Course (log 17, 18). -/
def planBytes (e : Engine) : List Byte :=
  match e.course with
  | some k =>
    [1, k.tag, byteN (directionNumber k.direction), BitVec.ofInt 8 k.racking] ++
    bytesInt k.endPosition ++ [byteN k.runs.length] ++
    statusBytes (decide (e.runState = .knitting)) k.runs
  | none => List.replicate 8 0

/-- R96, R195: the payload of a Read Course reply. -/
def courseBytes (e : Engine) : List Byte :=
  byteN e.runState.number :: (bytesOfHalf e.courseNumber ++ [byteN (expectedNumber e.expected)] ++
  planBytes e ++ [byteN e.queue.length] ++
  e.queue.flatMap (fun p => [p.tag, byteN (directionNumber p.direction)]))

/-- R96: Read Course as its block carries it out. -/
def readCourse (s : State) : State × Answer := (s, okWith (courseBytes s.engine))

/-! ### The commands -/

/-- QUEUE_COURSE (R80). -/
def execQueueCourse (tag : Byte) (plan : PlanPayload) (s : State) : Outcome :=
  .next (serve tag (queueCourse plan) s)

/-- BEGIN_RUN (R70). -/
def execBeginRun (tag : Byte) (s : State) : Outcome := .next (serve tag beginRun s)

/-- END_RUN (R71). -/
def execEndRun (tag : Byte) (s : State) : Outcome := .next (serve tag endRun s)

/-- RESUME (R72). -/
def execResume (tag : Byte) (s : State) : Outcome := .next (serve tag resume s)

/-- ABORT_COURSE (R73). -/
def execAbortCourse (tag : Byte) (s : State) : Outcome := .next (serve tag abortCourse s)

/-- DROP_PLANS (R74). -/
def execDropPlans (tag : Byte) (s : State) : Outcome := .next (serve tag dropPlans s)

/-- READ_COURSE (R96). -/
def execReadCourse (tag : Byte) (s : State) : Outcome := .next (serve tag readCourse s)

end Sys2Proof.Machine
end

