-- ==== Sys2Proof/Machine/FaultBlock.lean ====
section
/-! DEFINITION. The requests of the Fault and Attention block and the halt input (chapter 8), with the layout
of the Read Status reply (R200). -/

namespace Sys2Proof.Machine

/-! ### The layout of Read Status (R200) -/

/-- A byte whose bit i is the i-th flag. -/
def flagByte (flags : List Bool) : Byte :=
  byteN (flags.zipIdx.foldl (fun n p => n + (if p.1 then 2 ^ p.2 else 0)) 0)

/-- Two bytes whose bit i is the i-th flag. -/
def flagHalf (flags : List Bool) : List Byte :=
  bytesNat (flags.zipIdx.foldl (fun n p => n + (if p.1 then 2 ^ p.2 else 0)) 0)

/-- R200: the number of a preparer state. -/
def PreparerState.number : PreparerState → Nat
  | .idle => 0
  | .filling => 1
  | .fetching => 2
  | .full => 3
  | .finished => 4

/-- R200: the number of a coil state. -/
def Coil.number : Coil → Nat
  | .off => 0
  | .knit => 1
  | .tuck => 2

/-- R200: the number of a coil pair's force, 0 for none. -/
def coilForceNumber : Option Coil → Nat
  | none => 0
  | some c => c.number + 1

/-- R200: the number of a pin's force, 0 for none. -/
def pinForceNumber : Option PinForce → Nat
  | none => 0
  | some .up => 1
  | some .down => 2

/-- R200: the next needle, 0xFFFF for none and 0xFFFE for past the span end. -/
def nextBytes : NextNeedle → List Byte
  | .none => [0xFF, 0xFF]
  | .past => [0xFE, 0xFF]
  | .at n => bytesNat n

/-- R200: the four bytes of a channel. -/
def channelBytes (ch : Channel) : List Byte :=
  [byteN (ch.preparer.number + 8 * ch.coil.number + 32 * coilForceNumber ch.force),
   byteN ch.queue.length] ++ nextBytes ch.next

/-- R200: the four bytes of a channel of a system out of use. -/
def unusedChannelBytes : List Byte := channelBytes Channel.reset

/-- R200: the channels of a bed. -/
def bedBytes (g : Geometry) (v : Vector Channel 4) : List Byte :=
  (List.finRange 4).flatMap (fun sys =>
    if sys.val < g.systems then channelBytes v[sys] else unusedChannelBytes)

/-- R200: the state, carrier and steps left of a pin. -/
def pinStateBytes : PinState → Nat × Nat × Nat
  | .up => (0, 0, 0)
  | .catching c left _ _ => (1, c.val, left)
  | .holding c _ _ => (2, c.val, 0)

/-- R200: the three bytes of a pin. -/
def pinBytes (p : Pin) : List Byte :=
  let b := pinStateBytes p.state
  [byteN (b.1 + 4 * p.sense.toNat + 8 * pinForceNumber p.force), byteN b.2.1, byteN b.2.2]

/-- R200: bytes 0..12, the run state, the faults, the policy and the marks. -/
def faultBytes (s : State) : List Byte :=
  let f := s.faults
  [byteN (s.engine.runState.number + 8 * (stopReq s).toNat + 16 * f.haltAsserted.toNat +
    32 * (attnLine s).toNat),
   flagByte [f.courseDone, f.markDone, f.loadEmpty]] ++
  flagHalf (f.records.toList.map (·.isSome)) ++
  flagHalf (f.records.toList.map (fun r =>
    match r with
    | some r => r.stopped
    | none => false)) ++
  [flagByte f.policy.stopEnable.toList] ++ flagHalf f.policy.faultAttention.toList ++
  [flagByte f.policy.eventAttention.toList, byteFlag s.zones.pendingMark.isSome,
   s.zones.pendingMark.getD 0, s.zones.lastMark]

/-- R200: bytes 13..19, the position tracker. -/
def trackerBytes (t : Tracker) : List Byte :=
  bytesInt t.position ++
  [byteN (t.phase + 8 * t.referenced.toNat + 16 * expectedNumber t.lastStep + 64 * t.slow.toNat +
    128 * t.correction.isSome.toNat)] ++
  bytesInt (t.correction.getD 0) ++ bytesNat t.interval

/-- R200: the 64 bytes of the Read Status reply. -/
def statusReplyBytes (s : State) : List Byte :=
  faultBytes s ++ trackerBytes s.tracker ++ bedBytes s.geometry s.front ++
  bedBytes s.geometry s.back ++ s.pins.toList.flatMap pinBytes

/-! ### Requests (R164, R168 to R170) -/

/-- R168: the event bits cleared. -/
def clearEvents (s : State) : State :=
  s.withFaults { s.faults with courseDone := false, markDone := false, loadEmpty := false }

/-- R200: bits 1..7 of the Read Status request byte are reserved. -/
def statusFlags (flags : Byte) : Option Bool :=
  if flags.extractLsb' 1 7 = 0#7 then some (flags.getLsbD 0) else none

/-- R168: Read Status as its block carries it out. -/
def readStatus (flags : Byte) (s : State) : State × Answer :=
  match statusFlags flags with
  | none => (s, refuse .range)
  | some true => (clearEvents s, okWith (statusReplyBytes s))
  | some false => (s, okWith (statusReplyBytes s))

/-- R169: Read Fault as its block carries it out. -/
def readFault (kind : Byte) (s : State) : State × Answer :=
  match idOf 11 kind with
  | none => (s, refuse .range)
  | some i => (s, okWith (recordBytes s.faults.records[i]))

/-- R196: the value of Clear Fault that names every kind. -/
def allKinds : Byte := 255

/-- R170: Clear Fault as its block carries it out. -/
def clearFault (kind : Byte) (s : State) : State × Answer :=
  if kind = allKinds then
    (s.withFaults { s.faults with records := Vector.replicate 11 none },
      okWith [byteN (s.faults.records.toList.filter (·.isSome)).length])
  else
    match idOf 11 kind with
    | none => (s, refuse .range)
    | some i =>
      (s.withFaults { s.faults with records := s.faults.records.set i none },
        okWith [byteFlag s.faults.records[i].isSome])

/-- R164, R196: the policy that twenty flags give, in their order. -/
def policyOf (flags : Vector Byte 20) : Policy where
  stopEnable := Vector.ofFn (fun i : Fin 6 => flags[i.val] == 1)
  faultAttention := Vector.ofFn (fun i : Fin 11 => flags[6 + i.val] == 1)
  eventAttention := Vector.ofFn (fun i : Fin 3 => flags[17 + i.val] == 1)

/-- R164: Set Policy as its block carries it out. -/
def setPolicy (flags : Vector Byte 20) (s : State) : State × Answer :=
  if flags.toList.all (fun b => (flagOf b).isSome) then
    (s.withFaults { s.faults with policy := policyOf flags }, okWith [])
  else (s, refuse .range)

/-! ### The halt input (R165) -/

/-- R165: the last sampled level of HALT_N. -/
def setHalt (s : State) (asserted : Bool) : State :=
  s.withFaults { s.faults with haltAsserted := asserted }

/-- R165: an assertion of HALT_N. -/
def haltAssertion (s : State) : State :=
  if s.faults.haltAsserted then s
  else takeReports (setHalt s true) [Report.plain .haltInput 0]

/-- R165: a release of HALT_N. -/
def haltRelease (s : State) : State := setHalt s false

/-! ### The commands -/

/-- READ_STATUS (R168). -/
def execReadStatus (tag flags : Byte) (s : State) : Outcome := .next (serve tag (readStatus flags) s)

/-- READ_FAULT (R169). -/
def execReadFault (tag kind : Byte) (s : State) : Outcome := .next (serve tag (readFault kind) s)

/-- CLEAR_FAULT (R170). -/
def execClearFault (tag kind : Byte) (s : State) : Outcome := .next (serve tag (clearFault kind) s)

/-- SET_POLICY (R164). -/
def execSetPolicy (tag : Byte) (flags : Vector Byte 20) (s : State) : Outcome :=
  .next (serve tag (setPolicy flags) s)

/-- HALT_ASSERTION (R165). -/
def execHaltAssertion (s : State) : Outcome := .next (whenOn haltAssertion s)

/-- HALT_RELEASE (R165). -/
def execHaltRelease (s : State) : Outcome := .next (whenOn haltRelease s)

end Sys2Proof.Machine
end

