-- ==== Sys2Proof/Machine/GeometryBlock.lean ====
section
/-! DEFINITION. Configure, Restart, reset and power-on (chapter 9). -/

namespace Sys2Proof.Machine

/-! ### The ranges of the fields (R175, R176) -/

/-- R175: every value of a group of offsets lies in −512..511. -/
def offsetsInRange {n : Nat} (v : Vector Half n) : Bool :=
  v.toList.all (fun x => within (-512) 511 x.toInt)

/-- R175: P is 1, 2, 4 or 8. -/
def pulsesInRange (b : Byte) : Bool := decide (b.toNat ∈ [1, 2, 4, 8])

/-- R175: the arbiter modes in their order. -/
def arbiterModeOf (b : Byte) : Option ArbiterMode :=
  if b = 0 then some .alternating else if b = 1 then some .rotating else none

/-- R175, R176: each field number with the test of its own range, in field order; the reserved mask bits
come first and name field 0. H0's own range is 0..2047, since N is tested with it only in the next check
(log 19). -/
def fieldTests (p : ConfigurePayload) : List (Nat × Bool) :=
  [(0, decide (p.reserved = 0#7)),
   (1, passes p.bedWidth (fun x => within 64 2048 x.toNat)),
   (2, passes p.systems (fun x => within 1 4 x.toNat)),
   (3, passes p.pulses pulsesInRange),
   (4, passes p.homeNeedle (fun x => within 0 2047 x.toNat)),
   (5, passes p.homeTolerance (fun x => within 0 3 x.toNat)),
   (6, passes p.pointOffsets offsetsInRange),
   (7, passes p.pinOffsets offsetsInRange),
   (8, passes p.engageLead (fun x => within 0 15 x.toNat)),
   (9, passes p.catchWindow (fun x => within 1 15 x.toNat)),
   (10, passes p.overshoot (fun x => within 0 31 x.toNat)),
   (11, passes p.clearance (fun x => within 1 15 x.toNat)),
   (12, passes p.fastLimit (fun x => within 50 65534 x.toNat)),
   (13, passes p.clearLimit (fun x => within 51 65535 x.toNat)),
   (14, passes p.arbiterMode (fun x => (arbiterModeOf x).isSome)),
   (15, passes p.urgency (fun x => within 1 47 x.toNat)),
   (17, passes p.pinPolarities (fun x => decide (x.extractLsb' 4 4 = 0#4)))]

/-- R176: the first field out of its range. -/
def badField (p : ConfigurePayload) : Option Nat :=
  ((fieldTests p).find? (fun t => !t.2)).map (·.1)

/-- R176: the resulting geometry: the given values over the record's present ones. -/
def resultingGeometry (g : Geometry) (p : ConfigurePayload) : Geometry where
  bedWidth := (p.bedWidth.map (·.toNat)).getD g.bedWidth
  systems := (p.systems.map (·.toNat)).getD g.systems
  pulses := (p.pulses.map (·.toNat)).getD g.pulses
  homeNeedle := (p.homeNeedle.map (·.toNat)).getD g.homeNeedle
  homeTolerance := (p.homeTolerance.map (·.toNat)).getD g.homeTolerance
  pointOffset := (p.pointOffsets.map (·.map (·.toInt))).getD g.pointOffset
  pinOffset := (p.pinOffsets.map (·.map (·.toInt))).getD g.pinOffset
  engageLead := (p.engageLead.map (·.toNat)).getD g.engageLead
  catchWindow := (p.catchWindow.map (·.toNat)).getD g.catchWindow
  overshoot := (p.overshoot.map (·.toNat)).getD g.overshoot
  clearance := (p.clearance.map (·.toNat)).getD g.clearance
  fastLimit := (p.fastLimit.map (·.toNat)).getD g.fastLimit
  clearLimit := (p.clearLimit.map (·.toNat)).getD g.clearLimit
  arbiterMode := (p.arbiterMode.bind arbiterModeOf).getD g.arbiterMode
  urgency := (p.urgency.map (·.toNat)).getD g.urgency
  coilInverted :=
    (p.coilPolarities.map (fun x => Vector.ofFn (fun i : Fin 16 => x.getLsbD i.val))).getD
      g.coilInverted
  pinInverted :=
    (p.pinPolarities.map (fun x => Vector.ofFn (fun i : Fin 4 => x.getLsbD i.val))).getD
      g.pinInverted

/-- R176, check 3: the field that does not agree. -/
def disagreeingField (g : Geometry) : Option Nat :=
  if g.bedWidth ≤ g.homeNeedle then some 4
  else if g.clearLimit ≤ g.fastLimit then some 13
  else none

/-- R176, check 4: a zone's current edges lie on a bed. -/
def zoneFits (bedWidth : Nat) (z : Option Zone) : Bool :=
  match z.bind Zone.current? with
  | some c => decide (c.given.left < bedWidth) && decide (c.given.right < bedWidth)
  | none => true

/-- R176, check 4: a RESTING carrier rests within the range of a bed. -/
def carrierFits (g : Geometry) (c : Carrier) : Bool :=
  match c.state with
  | .resting x => g.restRange x
  | .absent | .carried _ _ | .lost => true

/-- R176, check 5: two RESTING carriers of a rail stand at least C apart. -/
def railFits (g : Geometry) (v : Vector Carrier 16) (i : Fin 16) : Bool :=
  match v[i].state, v[partnerOf i].state with
  | .resting x, .resting y => !nearTo g.clearance x y
  | _, _ => true

/-- R176, checks 4 and 5: the field that would strand a record. -/
def strandedField (s : State) (g : Geometry) : Option Nat :=
  if !(s.zones.places.toList.all (zoneFits g.bedWidth) &&
      s.carriers.toList.all (carrierFits g)) then some 1
  else if !(List.finRange 16).all (railFits g s.carriers) then some 11
  else none

/-! ### What Configure changes (R111, R130, R177) -/

/-- R111: a position brought into the range of a bed. -/
def clampPosition (g : Geometry) (c : Int) : Int :=
  if c < -1024 then -1024 else if g.positionLimit .right < c then g.positionLimit .right else c

/-- R111: the tracker after a change of geometry. -/
def retrack (old new : Geometry) (t : Tracker) : Tracker :=
  { t with
    phase := if new.pulses = old.pulses then t.phase else 0
    position := if new.bedWidth = old.bedWidth then t.position else clampPosition new t.position
    referenced := t.referenced && decide (new.pulses = old.pulses) &&
      decide (new.homeNeedle = old.homeNeedle) &&
      (decide (new.bedWidth = old.bedWidth) ||
        decide (clampPosition new t.position = t.position)) }

/-- R130: the channels of the systems that a lower S puts out of use are released. -/
def retireChannels (old new : Geometry) (v : Vector Channel 4) : Vector Channel 4 :=
  Vector.ofFn (fun sys : Fin 4 =>
    if new.systems < old.systems ∧ new.systems ≤ sys.val then v[sys].released else v[sys])

/-- R130: the pins of the systems that a lower S puts out of use are released. -/
def retirePins (old new : Geometry) (v : Vector Pin 4) : Vector Pin 4 :=
  Vector.ofFn (fun sys : Fin 4 =>
    if new.systems < old.systems ∧ new.systems ≤ sys.val then v[sys].released else v[sys])

/-- R177: every given value is written at once, and the blocks act on the change. -/
def adoptGeometry (s : State) (g : Geometry) : State :=
  ((((s.withGeometry g).withTracker (retrack s.geometry g s.tracker)).withFront
    (retireChannels s.geometry g s.front)).withBack
    (retireChannels s.geometry g s.back)).withPins (retirePins s.geometry g s.pins)

/-- R176, R194: a refusal of Configure names a field. -/
def refuseField (code : ResultCode) (field : Nat) : Answer := ⟨code, [byteN field]⟩

/-- R176: the checks after that of the run state. -/
def configureChecked (p : ConfigurePayload) (s : State) : State × Answer :=
  let g := resultingGeometry s.geometry p
  match badField p, disagreeingField g, strandedField s g with
  | some n, _, _ => (s, refuseField .range n)
  | none, some n, _ => (s, refuseField .range n)
  | none, none, some n => (s, refuseField .inUse n)
  | none, none, none => (adoptGeometry s g, okWith (geometryBytes g))

/-- R176: Configure as the part carries it out. -/
def configure (p : ConfigurePayload) (s : State) : State × Answer :=
  if s.engine.runState ≠ .setup then (s, refuseField .state 0) else configureChecked p s

/-! ### Power-on and reset (R178, R179) -/

/-- The part with fresh blocks; the queue of commands and the counter of open orders stay. -/
def freshWith (s : State) (levels : InputLevels) : State :=
  { State.reset with
    tracker := Tracker.reset levels.encA levels.encB levels.home
    pins := levels.catchSense.map Pin.reset
    faults := FaultBlock.reset levels.haltAsserted
    freeCount := s.freeCount
    pending := s.pending }

/-- R179: the rise of RESET_N, with the first sample of the inputs. -/
def powerOn (levels : InputLevels) (s : State) : State := freshWith s levels

/-- Every input low and HALT_N released: the levels kept while nothing is sampled. -/
def noLevels : InputLevels := ⟨false, false, false, false, Vector.replicate 4 false⟩

/-- R178: RESET_N low; no state is kept. -/
def enterReset (s : State) : State := { freshWith s noLevels with inReset := true }

/-! ### Restart (R180, R181) -/

/-- R41, R180: an access in flight at a Restart runs on for nobody. -/
def orphanOf : Access → Access
  | .clear w => .clear w
  | .fetch _ w => .orphanRead w
  | .loadWrite w d => .orphanWrite w d
  | .readBack w => .orphanRead w
  | .orphanRead w => .orphanRead w
  | .orphanWrite w d => .orphanWrite w d

/-- R41: the Tile Store after Restart: pixel memory stays, and the access in flight. -/
def TileStore.afterRestart (t : TileStore) : TileStore :=
  { TileStore.reset with memory := t.memory, inFlight := t.inFlight.map orphanOf }

/-- R201: the Link Port at the acceptance of a Restart, which has not ended while an access is in flight
(R180). The model's record of the bytes shifted out stays. -/
def Link.afterRestart (accessInFlight : Bool) (shifted : List Byte) : Link :=
  { Link.reset with ready := true, restarting := accessInFlight, shifted := shifted }

/-- R98, R112, R180, R181: a Restart is accepted, the first sample of the inputs after it taken as the
previous sample. -/
def restartPart (first : InputLevels) (s : State) : State :=
  ((freshWith s first).withStore s.store.afterRestart).withLink
    (Link.afterRestart s.store.inFlight.isSome s.link.shifted)

/-- R180, R191: a Restart is accepted while another request executes, and dropped while a Restart executes
or the memory clear runs. -/
def restartDropped (s : State) : Bool := s.link.restarting || !s.link.ready

/-- R180: a well-formed Restart frame is received. -/
def restart (first : InputLevels) (s : State) : State :=
  if s.inReset then s else if restartDropped s then dropFrame s else restartPart first s

/-! ### The commands -/

/-- CONFIGURE (R176). -/
def execConfigure (tag : Byte) (fields : ConfigurePayload) (s : State) : Outcome :=
  .next (serve tag (configure fields) s)

/-- RESTART (R180). It forms no reply, so its tag is not echoed. -/
def execRestart (request : RestartRequest) (s : State) : Outcome := .next (restart request.first s)

/-- RESET (R178). -/
def execReset (s : State) : Outcome := .next (enterReset s)

/-- POWER_ON (R179). -/
def execPowerOn (levels : InputLevels) (s : State) : Outcome := .next (powerOn levels s)

end Sys2Proof.Machine
end

