-- ==== Sys2Proof/Machine/TileStore.lean ====
section
/-! DEFINITION. The Tile Store (chapter 2): the tile directory, loading and reading back, and the completion
of a store access. The arbiter and the grants stand in Ops.lean. -/

namespace Sys2Proof.Machine

/-! ### The directory (R26, R28, R29) -/

/-- R26: the extents of two tiles share a word. -/
def extentsMeet (a b : Tile) : Bool := decide (a.base < b.limit) && decide (b.base < a.limit)

/-- R26: the extent meets that of a tile in the directory. -/
def meetsTile (s : State) (t : Tile) : Bool :=
  s.store.tiles.toList.any (fun p =>
    match p with
    | some u => extentsMeet t u
    | none => false)

/-- R26: the record that Define Tile creates. -/
def newTile (width height base : Half) : Tile := ⟨width.toNat, height.toNat, base.toNat, 0⟩

/-- R26: W and H lie in 1..1024; B has two bytes, so it lies in 0..65535. -/
def Tile.inRange (t : Tile) : Bool :=
  decide (1 ≤ t.width) && decide (t.width ≤ 1024) && decide (1 ≤ t.height) && decide (t.height ≤ 1024)

/-- R26: Define Tile as its block carries it out. -/
def defineTile (id : Byte) (width height base : Half) (s : State) : State × Answer :=
  match idOf 64 id with
  | none => (s, refuse .range)
  | some i =>
    let t := newTile width height base
    if (s.tile? i).isSome then (s, refuse .inUse)
    else if !t.inRange then (s, refuse .range)
    else if memorySize < t.limit then (s, refuse .range)
    else if meetsTile s t then (s, refuse .overlap)
    else (setTile s i (some t), okWith (byteN t.pitch :: bytesNat t.lastWord))

/-- R28: Retire Tile as its block carries it out. -/
def retireTile (id : Byte) (s : State) : State × Answer :=
  match idOf 64 id with
  | none => (s, refuse .range)
  | some i =>
    match s.tile? i with
    | none => (s, refuse .noRecord)
    | some t =>
      if t.references ≠ 0 then (s, refuse .inUse)
      else if s.cursorOpen i then (s, refuse .busy)
      else (setTile s i none, okWith [])

/-- R29, R195: the cursor fields of a Read Tile reply, given when the cursor stands on the tile. A next word
of 65536, which its two bytes cannot hold, is sent as 0 (log 36). -/
def cursorBytes (s : State) (i : Fin 64) : List Byte :=
  match s.store.cursor with
  | some c =>
    if c.tile = i then 1 :: (bytesNat c.next ++ [byteN s.store.buffer.length]) else [0, 0, 0, 0]
  | none => [0, 0, 0, 0]

/-- R29, R195: the payload of a Read Tile reply (log 17). -/
def tileBytes (s : State) (i : Fin 64) (t : Tile) : List Byte :=
  bytesNat t.width ++ bytesNat t.height ++ bytesNat t.base ++ [byteN t.pitch] ++
  bytesNat t.lastWord ++ [byteN t.references, byteFlag (s.cursorOpen i)] ++ cursorBytes s i

/-- R29: Read Tile as its block carries it out. -/
def readTile (id : Byte) (s : State) : State × Answer :=
  match idOf 64 id with
  | none => (s, refuse .range)
  | some i =>
    match s.tile? i with
    | none => (s, refuse .noRecord)
    | some t => (s, okWith (tileBytes s i t))

/-! ### Loading (R31, R32) -/

/-- R11: the first word of a row of a tile. -/
def Tile.rowWord (t : Tile) (row : Nat) : Nat := t.base + row * t.pitch

/-- R31: Load Tile as its block carries it out. -/
def loadTile (id : Byte) (row : Half) (s : State) : State × Answer :=
  match idOf 64 id with
  | none => (s, refuse .range)
  | some i =>
    match s.tile? i with
    | none => (s, refuse .noRecord)
    | some t =>
      if t.height ≤ row.toNat then (s, refuse .range)
      else if t.references ≠ 0 then (s, refuse .inUse)
      else if !s.store.buffer.isEmpty then (s, refuse .busy)
      else (s.withStore { s.store with cursor := some ⟨i, t.rowWord row.toNat⟩ }, okWith [])

/-- R32: words bound to their destinations, from the cursor's next word on. -/
def bindWords (next : Nat) (words : List (BitVec 64)) : List (Nat × BitVec 64) :=
  words.zipIdx.map (fun p => (next + p.2, p.1))

/-- R32: the store takes the words of a Tile Data, and the loader asks for the first write (R33). -/
def takeWords (s : State) (c : Cursor) (words : List (BitVec 64)) : State :=
  pump (s.withStore { s.store with
    buffer := bindWords c.next words
    cursor := some { c with next := c.next + words.length } })

/-- R32: the payload is a whole number of words, 1 to 8. -/
def tileDataLength (n : Nat) : Bool := decide (n % 8 = 0) && decide (8 ≤ n) && decide (n ≤ 64)

/-- R32: the words that remain from the cursor to the end of its tile's extent. -/
def wordsLeft (s : State) (c : Cursor) : Nat :=
  match s.tile? c.tile with
  | some t => t.limit - c.next
  | none => 0

/-- R32: Tile Data as its block carries it out. -/
def tileData (bytes : List Byte) (s : State) : State × Answer :=
  match s.store.cursor with
  | none => (s, refuse .noRecord)
  | some c =>
    if !s.store.buffer.isEmpty then (s, refuse .busy)
    else if !tileDataLength bytes.length then (s, refuse .badLength)
    else if wordsLeft s c < bytes.length / 8 then (s, refuse .range)
    else (takeWords s c (wordsOfBytes (bytes.length / 8) bytes), okWith [])

/-! ### Reading back (R34) -/

/-- R34: the checks of Read Tile Words: the words to read, or the refusal. -/
def readBackWords (s : State) (id : Byte) (row : Half) (word count : Byte) :
    ResultCode ⊕ List Nat :=
  match idOf 64 id with
  | none => .inl .range
  | some i =>
    match s.tile? i with
    | none => .inl .noRecord
    | some t =>
      let first := t.rowWord row.toNat + word.toNat
      if t.height ≤ row.toNat ∨ t.pitch ≤ word.toNat ∨ count.toNat < 1 ∨ 8 < count.toNat then
        .inl .range
      else if t.limit < first + count.toNat then .inl .range
      else .inr ((List.range count.toNat).map (first + ·))

/-- R34, R189: a Read Tile Words in the request slot, its reads asked for. -/
def holdReadBack (tag : Byte) (lost : Bool) (words : List Nat) (s : State) : State :=
  pump (s.withLink { s.link with request := some ⟨tag, lost, words, []⟩ })

/-- R34, R190: Read Tile Words answers at once only with a refusal. -/
def serveReadBack (tag id : Byte) (row : Half) (word count : Byte) (s : State) : State :=
  if s.inReset then s
  else if linkBusy s then dropFrame s
  else
    match readBackWords (openFrame s) id row word count with
    | .inl code => formReply tag (unreadReply s) (openFrame s, refuse code)
    | .inr words => holdReadBack tag (unreadReply s) words (openFrame s)

/-! ### The completion of an access (R35) -/

/-- The port is free. -/
def freePort (s : State) : State := s.withStore { s.store with inFlight := none }

/-- R23, R35: a word is written with good parity. -/
def writeWord (s : State) (w : Nat) (d : BitVec 64) : State :=
  s.withStore { s.store with memory := storeWord s.store.memory w (goodWord d) }

/-- R23, log 6: bits of a stored word change. -/
def upsetStored (s : State) (w : Nat) (u : PixelWord) : State :=
  s.withStore { s.store with
    memory := storeWord s.store.memory w (upsetWord (readWord s.store.memory w) u) }

/-- R24: a write of the memory clear completes: the next word, or the end of the clear. -/
def clearWord (w : Nat) (s : State) : State :=
  let cleared := writeWord s w 0
  if w + 1 = memorySize then
    (freePort cleared).withLink { s.link with ready := true }
  else cleared.withStore { cleared.store with inFlight := some (.clear (w + 1)) }

/-- R30: the cursor stands at the end of the extent of its tile. -/
def cursorAtEnd (s : State) : Bool :=
  match s.store.cursor with
  | some c =>
    match s.tile? c.tile with
    | some t => decide (c.next = t.limit)
    | none => false
  | none => false

/-- R33: the cursor closes when the buffer drains at the end of the extent. -/
def closeCursor (s : State) : State :=
  if cursorAtEnd s then s.withStore { s.store with cursor := none } else s

/-- R33: what follows the write that empties the buffer. -/
def bufferDrained (s : State) : State :=
  if s.store.buffer.isEmpty then closeCursor (setLoadEmpty s) else s

/-- R33: a write of the loader completes. -/
def loadWritten (w : Nat) (d : BitVec 64) (s : State) : State :=
  let written := writeWord (freePort s) w d
  pump (bufferDrained (written.withStore { written.store with buffer := written.store.buffer.tail }))

/-- R34: the byte whose bit i − 1 is set when word i failed its check (R196). -/
def failedByte (words : List (BitVec 64 × Bool)) : Byte :=
  byteN (words.zipIdx.foldl (fun n p => n + (if p.1.2 then 0 else 2 ^ p.2)) 0)

/-- R34: the answer to a Read Tile Words whose reads have all completed. -/
def readBackAnswer (words : List (BitVec 64 × Bool)) : Answer :=
  ⟨if words.all (·.2) then .ok else .parity,
   words.flatMap (fun p => wordBytes p.1) ++ [failedByte words]⟩

/-- R34, R190: the last read has completed: the reply is formed and the request slot emptied. -/
def answerReadBack (s : State) (r : ReadBack) : State :=
  formReply r.tag r.previousLost
    (s.withLink { s.link with request := none }, readBackAnswer r.words)

/-- R34: a read of Read Tile Words completes with its word. -/
def readBackWord (v : PixelWord) (s : State) : State :=
  match s.link.request with
  | none => pump s
  | some r =>
    let r' := { r with words := r.words ++ [(v.data, parityPasses v)] }
    if r.waiting.isEmpty then pump (answerReadBack s r')
    else pump (s.withLink { s.link with request := some r' })

/-- R133: a stale read is discarded. -/
def dropStale (s : State) (sys : Fin 4) : State :=
  pump (setChannel s .front sys { s.front[sys] with stale := false })

/-- R120, R121, R133: a preparer's read completes with its word. -/
def fetchedWord (sys : Fin 4) (v : PixelWord) (s : State) : State :=
  if s.front[sys].stale then dropStale s sys
  else
    let c := completeFetch s sys v.data (parityPasses v)
    grantAndTake c.1.bumpFree (fun s' => takeReports s' c.2)

/-- R180: a Restart ends when the access that was in flight has completed. -/
def endRestart (s : State) : State := s.withLink { s.link with restarting := false }

/-- R35: what the access in flight does at its completion. -/
def completeAccess (upset : PixelWord) (s : State) : Access → State
  | .clear w => clearWord w s
  | .fetch sys w =>
    fetchedWord sys (upsetWord (readWord s.store.memory w) upset) (upsetStored (freePort s) w upset)
  | .loadWrite w d => loadWritten w d s
  | .readBack w =>
    readBackWord (upsetWord (readWord s.store.memory w) upset) (upsetStored (freePort s) w upset)
  | .orphanRead w => endRestart (upsetStored (freePort s) w upset)
  | .orphanWrite w d => endRestart (writeWord (freePort s) w d)

/-- The word that an access names. -/
def Access.word : Access → Nat
  | .clear w => w
  | .fetch _ w => w
  | .loadWrite w _ => w
  | .readBack w => w
  | .orphanRead w => w
  | .orphanWrite w _ => w

/-- R35: the access in flight completes; with none in flight there is nothing to complete. A word that does
not exist stops the machine (log 27). -/
def storeAccessComplete (upset : PixelWord) (s : State) : Outcome :=
  match s.store.inFlight with
  | none => .next s
  | some a =>
    if a.word < memorySize then .next (completeAccess upset s a) else .fault (.noSuchWord a.word)

/-! ### The commands -/

/-- DEFINE_TILE (R26). -/
def execDefineTile (tag id : Byte) (width height base : Half) (s : State) : Outcome :=
  .next (serve tag (defineTile id width height base) s)

/-- RETIRE_TILE (R28). -/
def execRetireTile (tag id : Byte) (s : State) : Outcome := .next (serve tag (retireTile id) s)

/-- READ_TILE (R29). -/
def execReadTile (tag id : Byte) (s : State) : Outcome := .next (serve tag (readTile id) s)

/-- LOAD_TILE (R31). -/
def execLoadTile (tag id : Byte) (row : Half) (s : State) : Outcome :=
  .next (serve tag (loadTile id row) s)

/-- R188, R196: Tile Data with the answer that the link gives to a payload the store never sees: an empty one
is none that the catalogue allows, and one of more than 72 bytes makes a frame too long (log 32). -/
def tileDataFrame (bytes : List Byte) (s : State) : State × Answer :=
  if bytes.isEmpty then (s, refuse .badLength)
  else if 72 < bytes.length then (s, refuse .badFrame)
  else tileData bytes s

/-- TILE_DATA (R32). -/
def execTileData (tag : Byte) (bytes : List Byte) (s : State) : Outcome :=
  .next (serve tag (tileDataFrame bytes) s)

/-- READ_TILE_WORDS (R34). -/
def execReadTileWords (tag id : Byte) (row : Half) (word count : Byte) (s : State) : Outcome :=
  .next (serveReadBack tag id row word count s)

/-- STORE_ACCESS_COMPLETE (R35). -/
def execStoreAccessComplete (upset : PixelWord) (s : State) : Outcome :=
  if s.inReset then .next s else storeAccessComplete upset s

end Sys2Proof.Machine
end

