-- ==== Sys2Proof/Machine/Tracker.lean ====
section
/-! DEFINITION. The Position Tracker (chapter 5): counts, needle-steps, the home edge, the needle interval and
the speed window. -/

namespace Sys2Proof.Machine

/-! ### Time (R108, R109) -/

/-- R109: SLOW released, and the overspeed-reported flag with it (R110). -/
def releaseSlow (t : Tracker) : Tracker := { t with slow := false, overspeedReported := false }

/-- R109: the window reads its limits in every run state but SETUP. -/
def windowDrives (r : RunState) : Bool := decide (r ≠ .setup)

/-- R108, R109: time passes; SLOW is released when the clear time expires in it (log 7). -/
def passTime (micros : Nat) (s : State) : State :=
  let t := { s.tracker with sinceStep := s.tracker.sinceStep + micros }
  if windowDrives s.engine.runState && t.slow && decide (s.geometry.clearLimit < t.sinceStep) then
    s.withTracker (releaseSlow t)
  else s.withTracker t

/-- R108: the interval of an elapsed time. -/
def intervalOf (elapsed : Nat) : Nat := min (max elapsed 1) 65535

/-- R109: the speed window at a needle-step, with the interval just measured. -/
def speedWindow (g : Geometry) (r : RunState) (t : Tracker) : Tracker :=
  if windowDrives r then
    if t.interval < g.fastLimit then { t with slow := true }
    else if g.clearLimit < t.interval then releaseSlow t
    else t
  else t

/-! ### Needle-steps (R100, R101) -/

/-- The position one needle further in a direction. -/
def stepped (d : Direction) (c : Int) : Int := ahead d c 1

/-- R99, R101, R107: the reference is withdrawn and a pending correction discarded. -/
def withdraw (t : Tracker) : Tracker := { t with referenced := false, correction := none }

/-- R101: a step refused at the limit of the position range. -/
def refuseStep (s : State) : State :=
  takeReports (s.withTracker (withdraw s.tracker)) [Report.plain .encoder 2]

/-- R100, R108, R109: the tracker at a step taken. -/
def trackStep (g : Geometry) (r : RunState) (d : Direction) (t : Tracker) : Tracker :=
  speedWindow g r { t with
    position := stepped d t.position
    lastStep := some d
    interval := intervalOf t.sinceStep
    sinceStep := 0 }

/-- R100: a step is taken and the needle-step event reaches every block. -/
def takeStep (d : Direction) (s : State) : State :=
  courseNeedleStep d
    (s.withTracker (trackStep s.geometry s.engine.runState d s.tracker))

/-- R100, R101: a step, taken or refused at the limit. -/
def needleStep (d : Direction) (s : State) : State :=
  if s.tracker.position = s.geometry.positionLimit d then refuseStep s else takeStep d s

/-! ### Counts (R98, R100) -/

/-- R98: the direction of the count that a change of one line makes from a pair of levels. -/
def countDirectionOf (encA encB : Bool) (line : EncoderLine) : Direction :=
  match encA, encB, line with
  | false, false, .encA => .right
  | false, false, .encB => .left
  | true, false, .encB => .right
  | true, false, .encA => .left
  | true, true, .encA => .right
  | true, true, .encB => .left
  | false, true, .encB => .right
  | false, true, .encA => .left

/-- R98: the encoder levels after a change of one line. -/
def toggle (t : Tracker) (line : EncoderLine) : Tracker :=
  match line with
  | .encA => { t with encA := !t.encA }
  | .encB => { t with encB := !t.encB }

/-- R100: the phase after a count. -/
def phaseAfter (pulses : Nat) (d : Direction) (phase : Nat) : Nat :=
  match d with
  | .right => if phase + 1 = pulses then 0 else phase + 1
  | .left => if phase = 0 then pulses - 1 else phase - 1

/-- R100: whether a count makes a step. -/
def makesStep (pulses : Nat) (d : Direction) (phase : Nat) : Bool :=
  match d with
  | .right => decide (phase + 1 = pulses)
  | .left => decide (phase = 0)

/-- R98, R100: the tracker takes a count, with the sample it came in. -/
def trackCount (g : Geometry) (line : EncoderLine) (home : Bool) (d : Direction) (t : Tracker) :
    Tracker :=
  { toggle t line with
    home := home, countDirection := some d, phase := phaseAfter g.pulses d t.phase }

/-- R98, R100: a count and the step it may make. -/
def takeCount (line : EncoderLine) (home : Bool) (s : State) : State :=
  let d := countDirectionOf s.tracker.encA s.tracker.encB line
  let counted := s.withTracker (trackCount s.geometry line home d s.tracker)
  if makesStep s.geometry.pulses d s.tracker.phase then needleStep d counted else counted

/-- R98: a sample in which one encoder line has changed. -/
def encoderCount (line : EncoderLine) (home : Bool) (micros : Nat) (s : State) : State :=
  takeCount line home (passTime micros s)

/-! ### Illegal transitions (R99) -/

/-- R99: a sample in which both encoder lines have changed. -/
def illegalTransition (home : Bool) (s : State) : State :=
  takeReports
    (s.withTracker (withdraw { s.tracker with
      encA := !s.tracker.encA, encB := !s.tracker.encB, home := home }))
    [Report.plain .encoder 1]

/-! ### The home edge (R103 to R106) -/

/-- R103: the home value for a count direction. -/
def homeValue (g : Geometry) (d : Direction) : Int :=
  match d with
  | .right => g.homeNeedle
  | .left => (g.homeNeedle : Int) - 1

/-- R105, R106: the HOME_MISMATCH of a deviation, with the position as it stood. -/
def mismatchReports (g : Geometry) (c delta : Int) : List Report :=
  if (g.homeTolerance : Int) < delta.natAbs then
    [⟨.homeMismatch, some c, none, none, none, none, min delta.natAbs 15⟩]
  else []

/-- R104: a home edge without a reference sets it. -/
def referenceAt (s : State) (h : Int) : State :=
  s.withTracker { s.tracker with
    home := true, phase := 0, position := h, referenced := true, correction := none }

/-- R105: a home edge outside KNITTING corrects the position at once. -/
def correctAt (s : State) (h : Int) : State :=
  takeReports (s.withTracker { s.tracker with home := true, phase := 0, position := h })
    (mismatchReports s.geometry s.tracker.position (h - s.tracker.position))

/-- R106: a home edge in KNITTING leaves a pending correction. -/
def deferAt (s : State) (h : Int) : State :=
  let delta := h - s.tracker.position
  takeReports (s.withTracker { s.tracker with
      home := true, phase := 0, correction := if delta = 0 then none else some delta })
    (mismatchReports s.geometry s.tracker.position delta)

/-- R103 to R106: a home edge. It is ignored while the count direction is none, right after a Restart too,
though R182 has the next home edge reference the position (log 38). -/
def homeEdge (s : State) : State :=
  match s.tracker.countDirection with
  | none => s.withTracker { s.tracker with home := true }
  | some d =>
    let h := homeValue s.geometry d
    if !s.tracker.referenced then referenceAt s h
    else if s.engine.runState = .knitting then deferAt s h
    else correctAt s h

/-! ### The clear time (R109) -/

/-- R109: the clear time expires: SLOW is released without waiting for a step. With SLOW released, and in
SETUP, there is nothing to expire. -/
def clearTimeExpiry (s : State) : State :=
  if windowDrives s.engine.runState && s.tracker.slow then
    s.withTracker (releaseSlow { s.tracker with
      sinceStep := max s.tracker.sinceStep (s.geometry.clearLimit + 1) })
  else s

/-! ### The commands -/

/-- ENCODER_COUNT (R98). -/
def execEncoderCount (line : EncoderLine) (home : Bool) (micros : Nat) (s : State) : Outcome :=
  .next (whenOn (encoderCount line home micros) s)

/-- ILLEGAL_TRANSITION (R99). -/
def execIllegalTransition (home : Bool) (s : State) : Outcome :=
  .next (whenOn (illegalTransition home) s)

/-- HOME_EDGE (R103). -/
def execHomeEdge (s : State) : Outcome := .next (whenOn homeEdge s)

/-- CLEAR_TIME_EXPIRY (R109). -/
def execClearTimeExpiry (s : State) : Outcome := .next (whenOn clearTimeExpiry s)

end Sys2Proof.Machine
end

