-- ==== Sys2Proof/Machine/ZoneTable.lean ====
section
/-! DEFINITION. The requests of the Zone Table (chapter 3). The application of pending parts stands in
Ops.lean and the row advance in CourseEngine.lean. -/

namespace Sys2Proof.Machine

/-! ### The projected picture (R47, R48) -/

/-- R46: edits are staged in PREPARED and KNITTING. -/
def RunState.stages : RunState → Bool
  | .prepared | .knitting => true
  | .setup | .ready | .held => false

/-- R47: the projected range of a zone, none for a RETIRING one. -/
def Zone.projected? : Zone → Option (Nat × Nat)
  | .pending f => some (f.left, f.right)
  | .live c none => some (c.given.left, c.given.right)
  | .live c (some p) => some (p.left.getD c.given.left, p.right.getD c.given.right)
  | .retiring _ _ => none

/-- R47: two ranges share a needle. -/
def rangesMeet (a b : Nat × Nat) : Bool := decide (a.1 ≤ b.2) && decide (b.1 ≤ a.2)

/-- R48: a range of a zone meets the projected range of another zone. -/
def meetsProjected (z : ZoneTable) (own : Fin 32) (range : Nat × Nat) : Bool :=
  (List.finRange 32).any (fun i =>
    decide (i ≠ own) &&
    match z.places[i] with
    | some zone =>
      match zone.projected? with
      | some r => rangesMeet range r
      | none => false
    | none => false)

/-! ### Define Zone (R49 to R51) -/

/-- R50, R51: the zone that a Define Zone creates. -/
def definedZone (staged : Bool) (f : ZoneFields) (width : Nat) : Zone :=
  if staged then .pending f else .live (freshPart f width) none

/-- R50, R51, R195: the payload of a Define Zone reply. -/
def definedBytes (staged : Bool) (f : ZoneFields) (width : Nat) : List Byte :=
  if staged then [1, 0, 0, 0] else [0, 1] ++ bytesNat (freshPart f width).effective

/-- R49: the checks that read the tile, and the last one. -/
def defineZoneOn (i : Fin 32) (f : ZoneFields) (s : State) : State × Answer :=
  match s.tile? f.tile with
  | none => (s, refuse .noRecord)
  | some t =>
    if s.cursorOpen f.tile then (s, refuse .inUse)
    else if t.height ≤ f.row then (s, refuse .range)
    else if meetsProjected s.zones i (f.left, f.right) then (s, refuse .overlap)
    else
      let staged := s.engine.runState.stages
      (addReference (setZone s i (some (definedZone staged f t.width))) f.tile,
        okWith (definedBytes staged f t.width))

/-- R49: Define Zone as its block carries it out. -/
def defineZone (id : Byte) (p : ZonePayload) (s : State) : State × Answer :=
  match idOf 32 id with
  | none => (s, refuse .range)
  | some i =>
    if (s.zone? i).isSome then (s, refuse .inUse)
    else
      match zoneFieldsOf s.geometry p with
      | none => (s, refuse .range)
      | some f => defineZoneOn i f s

/-! ### Edit Zone (R52 to R55) -/

/-- R46, R55: fields written over a pending part; the latest wins. -/
def overlay (new old : PendingFields) : PendingFields where
  left := new.left.or old.left
  right := new.right.or old.right
  tile := new.tile.or old.tile
  anchor := new.anchor.or old.anchor
  shift := new.shift.or old.shift
  mirror := new.mirror.or old.mirror
  row := new.row.or old.row
  repeats := new.repeats.or old.repeats
  colours := new.colours.or old.colours
  map := new.map.or old.map
  backing := new.backing.or old.backing
  floatLimit := new.floatLimit.or old.floatLimit

/-- R46, R53: the pending part of a zone, empty where it has none. -/
def Zone.pendingPart : Zone → PendingFields
  | .pending f => f.asPending
  | .live _ p => p.getD PendingFields.empty
  | .retiring _ p => p

/-- The given fields that a zone's pending part stands over. -/
def Zone.baseFields : Zone → ZoneFields
  | .pending f => f
  | .live c _ => c.given
  | .retiring c _ => c.given

/-- R53: the resulting values of an edit: given, else pending, else current; a tile without a row gives
row 0. -/
def resultingFields (z : Zone) (p : PendingFields) : ZoneFields :=
  replaceFields z.baseFields (overlay p z.pendingPart)

/-- R53: the agreement test. -/
def editAgrees (s : State) (z : Zone) (p : PendingFields) : Bool :=
  let r := resultingFields z p
  decide (r.left ≤ r.right) && slotsBelow r.map r.colours &&
    (!(p.tile.isSome || p.row.isSome) || decide (r.row < s.heightOf r.tile))

/-- R52: the last check of an edit, when left or right is given. -/
def editOverlaps (s : State) (i : Fin 32) (z : Zone) (p : PendingFields) : Bool :=
  (p.left.isSome || p.right.isSome) &&
    meetsProjected s.zones i ((resultingFields z p).left, (resultingFields z p).right)

/-- R54: an edit taken between courses, with the reference counts it moves. -/
def applyEdit (s : State) (i : Fin 32) (c : ZonePart) (q : Option PendingFields)
    (p : PendingFields) : State :=
  let s' := setZone s i (some (.live (applyFields c p (s.widthOf (p.tile.getD c.given.tile))) q))
  match p.tile with
  | some t => addReference (dropReference s' c.given.tile) t
  | none => s'

/-- R55: the zone with an edit staged. -/
def stagedZone (z : Zone) (p : PendingFields) : Zone :=
  match z with
  | .pending f => .pending (replaceFields f (overlay p f.asPending))
  | .live c q => .live c (some (overlay p (q.getD PendingFields.empty)))
  | .retiring c q => .retiring c q

/-- R55: an edit staged, with the reference counts it moves. -/
def stageEdit (s : State) (i : Fin 32) (z : Zone) (p : PendingFields) : State :=
  let s' := setZone s i (some (stagedZone z p))
  match p.tile with
  | some t => addReference (dropPendingTile s' z.pendingPart) t
  | none => s'

/-- R54, R55: an accepted edit, with its outcome byte (R195). -/
def acceptEdit (s : State) (i : Fin 32) (z : Zone) (p : PendingFields) : State × Answer :=
  match s.engine.runState.stages, z with
  | false, .live c q => (applyEdit s i c q p, okWith [0])
  | _, _ => (stageEdit s i z p, okWith [1])

/-- R52: the checks of an edit on the tile it gives. -/
def editTileCheck (s : State) (p : PendingFields) : Option ResultCode :=
  match p.tile with
  | none => none
  | some t =>
    if (s.tile? t).isNone then some .noRecord
    else if s.cursorOpen t then some .inUse
    else none

/-- R52: the checks of an edit after that of its ranges. A mask that names no field passes every check
and changes nothing (log 20). -/
def editZoneOn (i : Fin 32) (z : Zone) (p : PendingFields) (s : State) : State × Answer :=
  if p.isEmpty then (s, okWith [2])
  else
    match editTileCheck s p with
    | some code => (s, refuse code)
    | none =>
      if !editAgrees s z p then (s, refuse .range)
      else if editOverlaps s i z p then (s, refuse .overlap)
      else acceptEdit s i z p

/-- R52: Edit Zone as its block carries it out. -/
def editZone (id : Byte) (payload : EditPayload) (s : State) : State × Answer :=
  match idOf 32 id with
  | none => (s, refuse .range)
  | some i =>
    match s.zone? i with
    | none => (s, refuse .noRecord)
    | some z =>
      if z.isRetiring then (s, refuse .noRecord)
      else
        match editFieldsOf s.geometry payload with
        | none => (s, refuse .range)
        | some p => editZoneOn i z p s

/-! ### Retire Zone (R56, R57) -/

/-- R56: a queued, prepared or active plan has an entry naming the zone. -/
def zoneNamed (e : Engine) (i : Fin 32) : Bool :=
  e.queue.any (fun p => p.entries.any (fun f => decide (f.zone = i))) ||
  (match e.course with
   | some k => k.runs.any (fun r => decide (r.entry.zone = i))
   | none => false)

/-- R57: a zone is retired: removed, or staged for removal, with its outcome byte (R195). -/
def retireFrom (s : State) (i : Fin 32) (z : Zone) : State × Answer :=
  match s.engine.runState.stages, z with
  | _, .pending f => (dropReference (setZone s i none) f.tile, okWith [0])
  | true, .live c p => (setZone s i (some (.retiring c (p.getD PendingFields.empty))), okWith [1])
  | false, .live c p =>
    (dropPendingTile (dropReference (setZone s i none) c.given.tile)
      (p.getD PendingFields.empty), okWith [0])
  | _, .retiring _ _ => (s, refuse .noRecord)

/-- R56: Retire Zone as its block carries it out. -/
def retireZone (id : Byte) (s : State) : State × Answer :=
  match idOf 32 id with
  | none => (s, refuse .range)
  | some i =>
    match s.zone? i with
    | none => (s, refuse .noRecord)
    | some z =>
      if z.isRetiring then (s, refuse .noRecord)
      else if zoneNamed s.engine i then (s, refuse .inUse)
      else retireFrom s i z

/-! ### Read Zone and Mark (R58, R66) -/

/-- R58: Read Zone as its block carries it out. -/
def readZone (id : Byte) (s : State) : State × Answer :=
  match idOf 32 id with
  | none => (s, refuse .range)
  | some i =>
    match s.zone? i with
    | none => (s, refuse .noRecord)
    | some z => (s, okWith (zoneBytes z))

/-- R66: some zone has a pending part. -/
def anyPending (z : ZoneTable) : Bool :=
  z.places.toList.any (fun p =>
    match p with
    | some zone => zone.hasPending
    | none => false)

/-- R66: Mark as its block carries it out. -/
def mark (markTag : Byte) (s : State) : State × Answer :=
  if s.zones.pendingMark.isSome then (s, refuse .busy)
  else if anyPending s.zones then
    (s.withZones { s.zones with pendingMark := some markTag }, okWith [1])
  else (setMarkDone (s.withZones { s.zones with lastMark := markTag }), okWith [0])

/-! ### The commands -/

/-- DEFINE_ZONE (R49). -/
def execDefineZone (tag id : Byte) (fields : ZonePayload) (s : State) : Outcome :=
  .next (serve tag (defineZone id fields) s)

/-- EDIT_ZONE (R52). -/
def execEditZone (tag id : Byte) (fields : EditPayload) (s : State) : Outcome :=
  .next (serve tag (editZone id fields) s)

/-- RETIRE_ZONE (R56). -/
def execRetireZone (tag id : Byte) (s : State) : Outcome := .next (serve tag (retireZone id) s)

/-- READ_ZONE (R58). -/
def execReadZone (tag id : Byte) (s : State) : Outcome := .next (serve tag (readZone id) s)

/-- MARK (R66). -/
def execMark (tag markTag : Byte) (s : State) : Outcome := .next (serve tag (mark markTag) s)

end Sys2Proof.Machine
end

