-- ==== Sys2Proof/Machine/LinkPort.lean ====
section
/-! DEFINITION. The Link Port (chapter 10): what a transfer does at the fall and at the rise of CS_N. -/

namespace Sys2Proof.Machine

/-! ### Reply frames (R187, R190, R194) -/

/-- R194: the number of a result code. -/
def ResultCode.number : ResultCode → Nat
  | .ok => 0
  | .badFrame => 1
  | .unknown => 2
  | .badLength => 3
  | .range => 4
  | .state => 5
  | .noRecord => 6
  | .inUse => 7
  | .overlap => 8
  | .full => 9
  | .busy => 10
  | .direction => 11
  | .order => 12
  | .parity => 13

/-- R194: the result byte, with PREVIOUS_LOST in bit 7. -/
def resultByte (r : Reply) : Byte := byteN (r.code.number + 128 * r.previousLost.toNat)

/-- R187, R190: a reply frame on the wire; its second byte is the result byte where a request has its
code. -/
def replyFrame (r : Reply) : List Byte :=
  let head := byteN (r.payload.length + 4) :: resultByte r :: r.tag :: r.payload
  head ++ crcBytes head

/-! ### Transfers (R185, R193) -/

/-- R185: the fall of CS_N samples the status byte and the reply slot. -/
def sampleTransfer (s : State) : Transfer := ⟨statusByte s, s.link.reply.map (·.reply)⟩

/-- R185: a transfer begins. -/
def transferStart (s : State) : State :=
  s.withLink { s.link with transfer := some (sampleTransfer s) }

/-- R185: the transfer that ends now; one whose fall was not commanded is sampled now (log 24). -/
def endingTransfer (s : State) : Transfer := s.link.transfer.getD (sampleTransfer s)

/-- R193: what a read-reply transfer shifts out after the status byte: the reply, or the empty slot's
length 0, and then 0x00. -/
def replyOut (r : Option Reply) (count : Nat) : List Byte :=
  match r with
  | some r => (replyFrame r ++ List.replicate count 0).take count
  | none => List.replicate count 0

/-- R193: every byte of the reply has been shifted out. -/
def whollyRead (r : Option Reply) (count : Nat) : Bool :=
  match r with
  | some r => decide ((replyFrame r).length ≤ count)
  | none => false

/-- R192, R193: the reply in the slot is completely read. -/
def markRead (l : Link) : Link := { l with reply := l.reply.map (fun r => { r with read := true }) }

/-- R193: a read-reply transfer ends. -/
def readReply (count : Nat) (s : State) : State :=
  let t := endingTransfer s
  let shiftedOut := { s.link with
    transfer := none, shifted := t.status :: replyOut t.reply count }
  s.withLink (if whollyRead t.reply count then markRead shiftedOut else shiftedOut)

/-- R185: what a transfer of a type other than 0 and 1 shifts out while these bytes are shifted in: the
status byte for the type byte, and then the same byte for type 2 and 0x00 for every other type. -/
def quietOut (status : Byte) : List Byte → List Byte
  | [] => []
  | type :: rest => status :: List.replicate rest.length (if type = 2 then status else 0)

/-- R185: a transfer with no effect ends; one without a whole byte leaves the record as it stands. -/
def statusOnly (shiftedIn : List Byte) (s : State) : State :=
  s.withLink { s.link with
    transfer := none
    shifted := if shiftedIn.isEmpty then s.link.shifted
      else quietOut (endingTransfer s).status shiftedIn }

/-- R185: what a write request shifts out, the status byte and 0x00 for every byte after the type byte. -/
def recordWrite (count : Nat) (s : State) : State :=
  s.withLink { s.link with shifted := (endingTransfer s).status :: List.replicate count 0 }

/-! ### Received frames (R188, R189, R191) -/

/-- R188: a transfer ends that carried no frame. -/
def endTransfer (s : State) : State := s.withLink { s.link with transfer := none }

/-- R188: a frame that fails a check is answered at once. -/
def answerFrame (tag : Byte) (code : ResultCode) (s : State) : State :=
  formReply tag (unreadReply s) (openFrame s, refuse code)

/-- R188: the frame is a well-formed Restart. -/
def isRestart : FrameVerdict → Bool
  | .request (.restart _) => true
  | _ => false

/-- R189, R196: a request is handed to its owning block. A command that is no request never comes out of
a frame. -/
def handOver (i : Instr) (s : State) : Outcome :=
  match i with
  | .readStatus tag flags => execReadStatus tag flags s
  | .readCourse tag => execReadCourse tag s
  | .readFault tag kind => execReadFault tag kind s
  | .clearFault tag kind => execClearFault tag kind s
  | .setPolicy tag flags => execSetPolicy tag flags s
  | .configure tag fields => execConfigure tag fields s
  | .beginRun tag => execBeginRun tag s
  | .endRun tag => execEndRun tag s
  | .resume tag => execResume tag s
  | .abortCourse tag => execAbortCourse tag s
  | .forceOutputs tag target system bed value => execForceOutputs tag target system bed value s
  | .restart request => execRestart request s
  | .defineTile tag id width height base => execDefineTile tag id width height base s
  | .retireTile tag id => execRetireTile tag id s
  | .readTile tag id => execReadTile tag id s
  | .loadTile tag id row => execLoadTile tag id row s
  | .tileData tag bytes => execTileData tag bytes s
  | .readTileWords tag id row word count => execReadTileWords tag id row word count s
  | .defineZone tag id fields => execDefineZone tag id fields s
  | .editZone tag id fields => execEditZone tag id fields s
  | .retireZone tag id => execRetireZone tag id s
  | .readZone tag id => execReadZone tag id s
  | .mark tag markTag => execMark tag markTag s
  | .installCarrier tag id position yarn => execInstallCarrier tag id position yarn s
  | .placeCarrier tag id position => execPlaceCarrier tag id position s
  | .removeCarrier tag id => execRemoveCarrier tag id s
  | .readCarrier tag id => execReadCarrier tag id s
  | .queueCourse tag plan => execQueueCourse tag plan s
  | .dropPlans tag => execDropPlans tag s
  | .transferStart | .writeRequest _ | .readReply _ | .statusOnly _ | .reset | .powerOn _
  | .storeAccessComplete _ | .encoderCount _ _ _ | .illegalTransition _ | .homeEdge
  | .clearTimeExpiry | .haltAssertion | .haltRelease | .catchRise _ | .catchFall _
  | .carrierMissed _ => .next (endTransfer s)

/-- R188: a frame that is received and not dropped. -/
def takeFrame (v : FrameVerdict) (s : State) : Outcome :=
  match v with
  | .request i => handOver i s
  | .badFrame tag => .next (answerFrame tag .badFrame s)
  | .unknown tag => .next (answerFrame tag .unknown s)
  | .badLength tag => .next (answerFrame tag .badLength s)

/-- R188, R191: a frame is received: dropped while the link is busy, but for a well-formed Restart while
another request executes (R180). -/
def receiveFrame (v : FrameVerdict) (s : State) : Outcome :=
  if linkBusy s && !isRestart v then .next (dropFrame s) else takeFrame v s

/-- R185, R188: a type-0 transfer ends; without a byte after the type byte it carries no frame. -/
def writeRequest (w : WriteTransfer) (s : State) : Outcome :=
  if s.inReset then .next s
  else if w.bytes.isEmpty then .next (endTransfer (recordWrite 0 s))
  else receiveFrame (readFrame w.first w.bytes) (recordWrite w.bytes.length s)

/-! ### The commands -/

/-- TRANSFER_START (R185). -/
def execTransferStart (s : State) : Outcome := .next (whenOn transferStart s)

/-- WRITE_REQUEST (R188). -/
def execWriteRequest (transfer : WriteTransfer) (s : State) : Outcome := writeRequest transfer s

/-- READ_REPLY (R193). -/
def execReadReply (count : Nat) (s : State) : Outcome := .next (whenOn (readReply count) s)

/-- STATUS_ONLY (R185). -/
def execStatusOnly (shiftedIn : List Byte) (s : State) : Outcome :=
  .next (whenOn (statusOnly shiftedIn) s)

end Sys2Proof.Machine
end

