-- ==== Sys2Proof/Machine/Dispatch.lean ====
section
/-! DEFINITION. The meaning of each command, one arm per row of the table. -/

namespace Sys2Proof.Machine

/-- What a command does to everything but the queue. -/
def exec (i : Instr) (s : State) : Host.Outcome State Fault Refusal :=
  match i with
  | .readStatus tag flags => Sys2Proof.Machine.execReadStatus tag flags s
  | .readCourse tag => Sys2Proof.Machine.execReadCourse tag s
  | .readFault tag kind => Sys2Proof.Machine.execReadFault tag kind s
  | .clearFault tag kind => Sys2Proof.Machine.execClearFault tag kind s
  | .setPolicy tag flags => Sys2Proof.Machine.execSetPolicy tag flags s
  | .configure tag fields => Sys2Proof.Machine.execConfigure tag fields s
  | .beginRun tag => Sys2Proof.Machine.execBeginRun tag s
  | .endRun tag => Sys2Proof.Machine.execEndRun tag s
  | .resume tag => Sys2Proof.Machine.execResume tag s
  | .abortCourse tag => Sys2Proof.Machine.execAbortCourse tag s
  | .forceOutputs tag target system bed value => Sys2Proof.Machine.execForceOutputs tag target system bed value s
  | .restart request => Sys2Proof.Machine.execRestart request s
  | .defineTile tag id width height base => Sys2Proof.Machine.execDefineTile tag id width height base s
  | .retireTile tag id => Sys2Proof.Machine.execRetireTile tag id s
  | .readTile tag id => Sys2Proof.Machine.execReadTile tag id s
  | .loadTile tag id row => Sys2Proof.Machine.execLoadTile tag id row s
  | .tileData tag bytes => Sys2Proof.Machine.execTileData tag bytes s
  | .readTileWords tag id row word count => Sys2Proof.Machine.execReadTileWords tag id row word count s
  | .defineZone tag id fields => Sys2Proof.Machine.execDefineZone tag id fields s
  | .editZone tag id fields => Sys2Proof.Machine.execEditZone tag id fields s
  | .retireZone tag id => Sys2Proof.Machine.execRetireZone tag id s
  | .readZone tag id => Sys2Proof.Machine.execReadZone tag id s
  | .mark tag markTag => Sys2Proof.Machine.execMark tag markTag s
  | .installCarrier tag id position yarn => Sys2Proof.Machine.execInstallCarrier tag id position yarn s
  | .placeCarrier tag id position => Sys2Proof.Machine.execPlaceCarrier tag id position s
  | .removeCarrier tag id => Sys2Proof.Machine.execRemoveCarrier tag id s
  | .readCarrier tag id => Sys2Proof.Machine.execReadCarrier tag id s
  | .queueCourse tag plan => Sys2Proof.Machine.execQueueCourse tag plan s
  | .dropPlans tag => Sys2Proof.Machine.execDropPlans tag s
  | .transferStart => Sys2Proof.Machine.execTransferStart s
  | .writeRequest transfer => Sys2Proof.Machine.execWriteRequest transfer s
  | .readReply count => Sys2Proof.Machine.execReadReply count s
  | .statusOnly shiftedIn => Sys2Proof.Machine.execStatusOnly shiftedIn s
  | .reset => Sys2Proof.Machine.execReset s
  | .powerOn levels => Sys2Proof.Machine.execPowerOn levels s
  | .storeAccessComplete upset => Sys2Proof.Machine.execStoreAccessComplete upset s
  | .encoderCount line home micros => Sys2Proof.Machine.execEncoderCount line home micros s
  | .illegalTransition home => Sys2Proof.Machine.execIllegalTransition home s
  | .homeEdge => Sys2Proof.Machine.execHomeEdge s
  | .clearTimeExpiry => Sys2Proof.Machine.execClearTimeExpiry s
  | .haltAssertion => Sys2Proof.Machine.execHaltAssertion s
  | .haltRelease => Sys2Proof.Machine.execHaltRelease s
  | .catchRise pin => Sys2Proof.Machine.execCatchRise pin s
  | .catchFall pin => Sys2Proof.Machine.execCatchFall pin s
  | .carrierMissed pin => Sys2Proof.Machine.execCarrierMissed pin s

end Sys2Proof.Machine
end

