-- ==== Sys2Proof/Safety.lean ====
section
/-! DEFINITION. What counts as a safe part, in the words the statements use: when the link takes a request and
what its answer leaves, and the laws of the part that every step keeps. -/

namespace Sys2Proof.Machine

/-! ### Requests and answers (R188 to R192, R194) -/

/-- The link takes a request: out of reset, with the memory clear over and nothing executing. -/
abbrev takesRequests (s : State) : Prop :=
  s.inReset = false ∧ s.link.ready = true ∧ s.link.request = none ∧ s.link.restarting = false

/-- R189, R190, R192: the link after a request answered at once. PREVIOUS_LOST is set when the reply
discarded was never completely read. -/
def answeredLink (l : Link) (tag : Byte) (code : ResultCode) (payload : List Byte) : Link :=
  { l with
    reply := some ⟨⟨tag, code, l.replyReady, payload⟩, false⟩, dropped := false, transfer := none }

/-- R194: a refusal leaves the part as it was, with an empty payload in the reply slot. -/
def refusedWith (s : State) (tag : Byte) (code : ResultCode) : State :=
  { s with link := answeredLink s.link tag code [] }

/-- R190: the state t with an OK reply formed where s stood. -/
def answeredWith (s t : State) (tag : Byte) (payload : List Byte) : State :=
  { t with link := answeredLink s.link tag .ok payload }

/-- R191: a frame is dropped. -/
def droppedFrame (s : State) : State :=
  { s with link := { s.link with dropped := true, transfer := none } }

/-- R185: a write request of this many bytes after the type byte has shifted out the status byte of its fall,
and 0x00 for every other byte. What was shifted out is the model's own record (log 24). -/
def writtenOut (s : State) (count : Nat) : State :=
  { s with link := { s.link with
      shifted := (s.link.transfer.map (·.status)).getD (statusByte s) :: List.replicate count 0 } }

/-- R160: the record of a kind holds one more occurrence, with this context when it opens. -/
def raisedFrom (s t : State) (kind : FaultKind) (context : Context) (stopping : Bool) : Prop :=
  t.faults.records[kind.number] =
    some (raiseRecord s.faults.records[kind.number] context stopping)

/-- R178: every output stands as in reset. -/
def outputsReleased (s : State) : Prop :=
  (∀ bed sys tuckCoil, coilLevel s bed sys tuckCoil = false) ∧ (∀ sys, pinLevel s sys = false) ∧
  stopReqLevel s = false ∧ slowLevel s = false ∧ attnLevel s = true ∧ sdoDriven s = false

/-- R131: a channel that has given up its plan. -/
def gaveUp (old new : Channel) : Prop :=
  new.span = none ∧ new.preparer = .idle ∧ new.next = .none ∧ new.pendingRead = none ∧
  new.fetch = none ∧ new.queue = [] ∧ new.coil = .off ∧ new.force = old.force ∧
  new.stale = (old.stale || old.fetch.isSome)

/-- Every channel has given up its plan. -/
def allGaveUp (s t : State) : Prop :=
  ∀ sys : Fin 4, gaveUp s.front[sys] t.front[sys] ∧ gaveUp s.back[sys] t.back[sys]

/-- R62: no zone has a pending part and no mark is pending. -/
def nothingPending (s : State) : Prop :=
  (∀ i : Fin 32, ∀ z, s.zones.places[i] = some z → z.hasPending = false) ∧
  s.zones.pendingMark = none

/-! ### The catalogue of requests (R195, R196, R198) -/

/-- The sizes of the fields whose mask bits are set. -/
def maskedSize (sizes : List Nat) (bit : Nat → Bool) : Nat :=
  (sizes.zipIdx.map (fun p => if bit p.2 then p.1 else 0)).sum

/-- R175, R195: the sizes of the fields of Configure, in field order. -/
def configureSizes : List Nat := [2, 1, 1, 2, 1, 32, 16, 1, 1, 1, 1, 2, 2, 1, 1, 2, 1]

/-- R198: the sizes of the fields of Edit Zone, in mask-bit order. -/
def editSizes : List Nat := [2, 2, 1, 2, 2, 2, 1, 1, 1, 1, 1, 16]

/-- R196: the requests whose payload has one length, each code with it. -/
def fixedLengths : List (Nat × Nat) :=
  [(0x01, 1), (0x02, 0), (0x03, 1), (0x04, 1), (0x05, 20), (0x11, 0), (0x12, 0), (0x13, 0),
   (0x14, 0), (0x15, 4), (0x1F, 0), (0x20, 7), (0x21, 3), (0x23, 5), (0x24, 1), (0x25, 1),
   (0x30, 32), (0x32, 1), (0x33, 1), (0x34, 1), (0x40, 4), (0x41, 3), (0x42, 1), (0x43, 1),
   (0x51, 0)]

/-- R196: the codes of the catalogue. -/
def knownCode (code : Nat) : Prop :=
  code ∈ fixedLengths.map (·.1) ∨ code = 0x10 ∨ code = 0x22 ∨ code = 0x31 ∨ code = 0x50

/-- R196: the payload length is one the catalogue allows for the code. -/
def lengthAllowed (code : Nat) (payload : List Byte) : Prop :=
  (code, payload.length) ∈ fixedLengths ∨
  (code = 0x22 ∧ 1 ≤ payload.length ∧ payload.length ≤ 72) ∨
  (code = 0x10 ∧ ∃ m0 m1 m2 fields, payload = m0 :: m1 :: m2 :: fields ∧
    fields.length = maskedSize configureSizes (fun i => (m2 ++ m1 ++ m0).getLsbD i)) ∨
  (code = 0x31 ∧ ∃ id m0 m1 fields, payload = id :: m0 :: m1 :: fields ∧
    fields.length = maskedSize editSizes (fun i => (m1 ++ m0).getLsbD i)) ∨
  (code = 0x50 ∧ ∃ a b c d e n entries, payload = a :: b :: c :: d :: e :: n :: entries ∧
    entries.length = 3 * n.toNat)

/-- R195: the two-byte field at a place of a payload, low byte first. -/
def halfAt (b : Nat → Byte) (n : Nat) : Half := halfOfBytes (b n) (b (n + 1))

/-- Each field of a pending part fits the bytes it is sent in (R198). -/
def pendingFits (p : PendingFields) : Prop :=
  (∀ x, p.left = some x → x < 65536) ∧ (∀ x, p.right = some x → x < 65536) ∧
  (∀ x, p.anchor = some x → -32768 ≤ x ∧ x < 32768) ∧
  (∀ x, p.shift = some x → -32768 ≤ x ∧ x < 32768) ∧ (∀ x, p.row = some x → x < 65536) ∧
  (∀ x, p.repeats = some x → x < 256) ∧ (∀ x, p.colours = some x → x < 256) ∧
  (∀ x, p.floatLimit = some x → x < 256)

/-- R141: how many queued, prepared or active plans name a carrier. -/
def plansNamed (s : State) (c : Fin 16) : Nat :=
  s.engine.queue.countP (fun p => p.entries.any (fun e => decide (e.carrier = c))) +
  if s.engine.course.any (fun k => k.runs.any (fun r => decide (r.entry.carrier = c))) then 1 else 0

/-! ### The course abort and one occurrence (R76, R160 to R163) -/

/-- R62, R63: what stands in a zone's place once its pending part is applied. -/
def appliedZone (s : State) : Option Zone → Option Zone
  | none => none
  | some (.pending f) => some (.live (freshPart f (s.widthOf f.tile)) none)
  | some (.live c none) => some (.live c none)
  | some (.live c (some p)) =>
    some (.live (applyFields c p (s.widthOf (p.tile.getD c.given.tile))) none)
  | some (.retiring _ _) => none

/-- R62, R64, R67: every pending part is applied, and a pending mark completes. -/
def partsApplied (s t : State) : Prop :=
  (∀ i : Fin 32, t.zones.places[i] = appliedZone s s.zones.places[i]) ∧
  t.zones.pendingMark = none ∧
  t.zones.lastMark = s.zones.pendingMark.getD s.zones.lastMark ∧
  t.faults.markDone = (s.faults.markDone || s.zones.pendingMark.isSome)

/-- A tile record without its reference count. -/
def Tile.shape (u : Tile) : Nat × Nat × Nat := (u.width, u.height, u.base)

/-- R42: the Tile Store stands as it was, but for the reference counts. -/
def storeKept (s t : State) : Prop :=
  t.store.memory = s.store.memory ∧ t.store.cursor = s.store.cursor ∧
  t.store.buffer = s.store.buffer ∧ t.store.inFlight = s.store.inFlight ∧
  t.store.lastGranted = s.store.lastGranted ∧ t.store.lastPreparer = s.store.lastPreparer ∧
  ∀ i : Fin 64, t.store.tiles[i].map Tile.shape = s.store.tiles[i].map Tile.shape

/-- R107: the tracker once a pending correction is applied. -/
def correctedTracker (g : Geometry) (t : Tracker) : Tracker :=
  match t.correction with
  | none => t
  | some delta =>
    if t.position + delta < -1024 then
      { t with position := -1024, correction := none, referenced := false }
    else if g.bedWidth + 1023 < t.position + delta then
      { t with position := g.bedWidth + 1023, correction := none, referenced := false }
    else { t with position := t.position + delta, correction := none }

/-- R76, R64, R107, R132, R155: what a course abort leaves, but for carriers and records. -/
def abortedFrom (s t : State) : Prop :=
  t.engine = { s.engine with runState := .held, course := none, queue := [] } ∧
  allGaveUp s t ∧ (∀ sys : Fin 4, t.pins[sys] = { s.pins[sys] with state := .up }) ∧
  partsApplied s t ∧ storeKept s t ∧ t.tracker = correctedTracker s.geometry s.tracker ∧
  t.geometry = s.geometry ∧ t.inReset = s.inReset ∧ t.faults.policy = s.faults.policy ∧
  t.faults.haltAsserted = s.faults.haltAsserted ∧ t.faults.courseDone = s.faults.courseDone ∧
  t.faults.loadEmpty = s.faults.loadEmpty

/-- The records of every kind outside a list stand as they were. -/
def recordsKept (s t : State) (but : List FaultKind) : Prop :=
  ∀ kind : FaultKind, kind ∉ but → t.faults.records[kind.number] = s.faults.records[kind.number]

/-- R162: whether an occurrence of a kind, taken now, causes a course abort. -/
def causesAbort (s : State) (kind : FaultKind) : Prop :=
  s.faults.policy.stops kind = true ∧ s.engine.runState.abortable = true

/-- R160: the state with one occurrence recorded and nothing else done. -/
def recordedIn (s : State) (kind : FaultKind) (context : Context) : State :=
  { s with
    freeCount := s.freeCount + 1
    faults := { s.faults with
      records := s.faults.records.set kind.number (some (raiseRecord s.faults.records[kind.number]
        context (s.faults.policy.stops kind && s.engine.runState.running))) } }

/-- R75, R160, R162: one occurrence is taken: it is recorded, and a stop in READY, PREPARED or KNITTING
aborts the course. -/
def occurrenceTaken (s t : State) (kind : FaultKind) (context : Context) : Prop :=
  (¬ causesAbort s kind → t = recordedIn s kind context) ∧
  (causesAbort s kind → abortedFrom s t ∧ t.link = s.link ∧ raisedFrom s t kind context true ∧
    recordsKept s t [kind, .carrierLost, .encoder])

/-! ### Plans (R80, R81, R83 to R86, R199) -/

/-- R80, R199: every field of a Queue Course payload lies in its range. -/
def planInRange (g : Geometry) (p : PlanPayload) : Prop :=
  p.direction.toNat ≤ 1 ∧ -8 ≤ p.racking.toInt ∧ p.racking.toInt ≤ 8 ∧
  -1024 ≤ p.endPosition.toInt ∧ p.endPosition.toInt ≤ g.bedWidth + 1023 ∧
  p.entries.length ≤ 16 ∧
  ∀ e ∈ p.entries, e.system.toNat < g.systems ∧ e.zone.toNat < 32

/-- R199: the plan that a payload in range carries. -/
def planMatches (p : PlanPayload) (q : Plan) : Prop :=
  q.tag = p.planTag ∧ q.direction = (if p.direction.toNat = 0 then .right else .left) ∧
  q.racking = p.racking.toInt ∧ q.endPosition = p.endPosition.toInt ∧
  q.entries.length = p.entries.length ∧
  ∀ (i : Nat) (e : EntryPayload) (f : Entry), p.entries[i]? = some e → q.entries[i]? = some f →
    f.system.val = e.system.toNat ∧ f.zone.val = e.zone.toNat ∧
    f.carrier.val = e.packed.toNat % 16 ∧ f.slot.val = e.packed.toNat / 16 % 8 ∧
    f.back = decide (128 ≤ e.packed.toNat)

/-- R81: a direction agrees with the sequence of directions. -/
def directionFits (e : Engine) (d : Direction) : Prop :=
  (∀ p, e.queue.getLast? = some p → d = opposite p.direction) ∧
  (e.queue = [] → ∀ k, e.course = some k → d = opposite k.direction) ∧
  (e.queue = [] → e.course = none → ∀ x, e.expected = some x → d = x)

/-- R80: every entry names a zone not retiring and a carrier not ABSENT. -/
def recordsFit (s : State) (p : Plan) : Prop :=
  ∀ e ∈ p.entries, (∃ z, s.zones.places[e.zone] = some z ∧ z.isRetiring = false) ∧
    s.carriers[e.carrier].state ≠ .absent

/-- R80: no two entries name one carrier or the two of one rail, or one zone for one system, and no system has
more than 8 entries. -/
def ordersFit (p : Plan) : Prop :=
  (∀ (i j : Nat) (e f : Entry), i < j → p.entries[i]? = some e → p.entries[j]? = some f →
    e.carrier ≠ f.carrier ∧ e.carrier.val / 2 ≠ f.carrier.val / 2 ∧
    ¬ (e.system = f.system ∧ e.zone = f.zone)) ∧
  ∀ sys : Fin 4, (p.entries.filter (fun e => decide (e.system = sys))).length ≤ 8

/-- R85, R144: the engage point of a carrier that rests at x. -/
def engageFrom (g : Geometry) (d : Direction) (x : Int) : Int :=
  match d with
  | .right => x - g.engageLead
  | .left => x + g.engageLead

/-- R85, R144: the release point beyond a zone. -/
def releaseBeyond (g : Geometry) (d : Direction) (c : ZonePart) : Int :=
  match d with
  | .right => c.given.right + g.overshoot
  | .left => c.given.left - g.overshoot

/-- R84 to R86: the condition of each check of preparation, for a plan whose earlier checks pass. -/
def checkPasses (s : State) (p : Plan) : PlanReason → Prop
  | .zoneState => ∀ e ∈ p.entries, ∃ c q, s.zones.places[e.zone] = some (.live c q)
  | .slotRange => ∀ e ∈ p.entries, ∀ c, s.part? e.zone = some c → e.slot.val < c.given.colours
  | .slotRepeat => ∀ (i : Nat) (e : Entry), p.entries[i]? = some e →
      (∀ c, s.part? e.zone = some c → c.served.getLsbD e.slot.val = false) ∧
      ∀ (j : Nat) (f : Entry), j < i → p.entries[j]? = some f → f.zone = e.zone → f.slot ≠ e.slot
  | .entryOrder => ∀ (i j : Nat) (e f : Entry) (ce cf : ZonePart), j < i →
      p.entries[i]? = some e → p.entries[j]? = some f → f.system = e.system →
      s.part? e.zone = some ce → s.part? f.zone = some cf →
      match p.direction with
      | .right => cf.given.right < ce.given.left
      | .left => ce.given.right < cf.given.left
  | .carrierState => ∀ e ∈ p.entries, ∃ x, s.carriers[e.carrier].state = .resting x
  | .carrierPlace => ∀ e ∈ p.entries, ∀ x c, s.carriers[e.carrier].state = .resting x →
      s.part? e.zone = some c →
      match p.direction with
      | .right => x ≤ c.given.left
      | .left => (c.given.right : Int) ≤ x
  | .pinOverlap => ∀ (i j : Nat) (e f : Entry) (x : Int) (cf : ZonePart), j < i →
      p.entries[i]? = some e → p.entries[j]? = some f → f.system = e.system →
      (∀ (k : Nat) (g : Entry), j < k → k < i → p.entries[k]? = some g → g.system ≠ e.system) →
      s.carriers[e.carrier].state = .resting x → s.part? f.zone = some cf →
      before p.direction (releaseBeyond s.geometry p.direction cf)
        (engageFrom s.geometry p.direction x) = true
  | .railConflict => ∀ e ∈ p.entries, ∀ x y c, s.carriers[e.carrier].state = .resting x →
      s.carriers[partnerOf e.carrier].state = .resting y → s.part? e.zone = some c →
      let r := releaseBeyond s.geometry p.direction c
      ¬ (min x r ≤ y ∧ y ≤ max x r) ∧ s.geometry.clearance ≤ (y - x).natAbs ∧
      s.geometry.clearance ≤ (y - r).natAbs
  | .railUnknown => ∀ e ∈ p.entries, s.carriers[partnerOf e.carrier].state ≠ .lost
  | .endShort => ∀ (sys : Fin 4) (e : Entry) (c : ZonePart),
      (p.entries.filter (fun e => decide (e.system = sys))).getLast? = some e →
      s.part? e.zone = some c →
      let far : Int := match p.direction with
        | .right => c.given.right
        | .left => c.given.left
      before p.direction (releaseBeyond s.geometry p.direction c -
        s.geometry.pinOffsetOf sys p.direction) p.endPosition = true ∧
      before p.direction (far - s.geometry.pointOffsetOf .front sys p.direction)
        p.endPosition = true ∧
      before p.direction (far - s.geometry.pointOffsetOf .back sys p.direction)
        p.endPosition = true
  | .positionUnreferenced => True
  | .lateStart => True

/-- An entry of a prepared plan without its float counter, which the preparers count with. -/
def EntryRun.fixed (r : EntryRun) : EntryRun := { r with floatCount := 0 }

/-- R115: the back span of a channel holds the back needles that stand under its front span. -/
def backSpanUnder (d : Direction) (bedWidth : Nat) (racking : Int) (f : Span) : Option Span → Prop
  | some b => ∀ n : Nat, insideSpan d b n = true ↔
      n < bedWidth ∧ insideSpan d f (n + racking) = true
  | none => ∀ n : Nat, n < bedWidth → insideSpan d f (n + racking) = false

/-! ### The tracker (R98, R100, R108, R109) -/

/-- The place of a pair of encoder levels in the cycle that a carriage going RIGHT runs through. -/
def cyclePlace : Bool → Bool → Nat
  | false, false => 0
  | true, false => 1
  | true, true => 2
  | false, true => 3

/-- R108, R109: the tracker when time has passed, SLOW released where the clear time has expired. -/
def timePassed (g : Geometry) (r : RunState) (micros : Nat) (t : Tracker) : Tracker :=
  let gone := t.sinceStep + micros
  let expires := decide (r ≠ .setup) && t.slow && decide (g.clearLimit < gone)
  { t with
    sinceStep := gone, slow := t.slow && !expires
    overspeedReported := t.overspeedReported && !expires }

/-- R98, R100: the tracker when a sample with a count is taken. -/
def counted (g : Geometry) (line : EncoderLine) (home : Bool) (d : Direction) (t : Tracker) : Tracker :=
  { t with
    encA := if line = .encA then !t.encA else t.encA
    encB := if line = .encB then !t.encB else t.encB
    home := home, countDirection := some d
    phase := match d with
      | .right => if t.phase + 1 = g.pulses then 0 else t.phase + 1
      | .left => if t.phase = 0 then g.pulses - 1 else t.phase - 1 }

/-- R100: a count completes a pitch. -/
def completesPitch (g : Geometry) (d : Direction) (phase : Nat) : Prop :=
  match d with
  | .right => phase + 1 = g.pulses
  | .left => phase = 0

/-- R100, R108, R109: the tracker when a step is taken. -/
def stepTaken (g : Geometry) (r : RunState) (d : Direction) (t : Tracker) : Tracker :=
  let n := min (max t.sinceStep 1) 65535
  let fast := decide (r ≠ .setup) && decide (n < g.fastLimit)
  let clear := decide (r ≠ .setup) && !decide (n < g.fastLimit) && decide (g.clearLimit < n)
  { t with
    position := match d with
      | .right => t.position + 1
      | .left => t.position - 1
    lastStep := some d, interval := n, sinceStep := 0
    slow := fast || (t.slow && !clear), overspeedReported := t.overspeedReported && !clear }

/-- The direction of the count that a change of a line makes (R98). -/
def countAt (s : State) (line : EncoderLine) : Direction :=
  countDirectionOf s.tracker.encA s.tracker.encB line

/-- The tracker after a count that makes no step. -/
def trackerAtCount (s : State) (line : EncoderLine) (home : Bool) (micros : Nat) : Tracker :=
  counted s.geometry line home (countAt s line)
    (timePassed s.geometry s.engine.runState micros s.tracker)

/-- The tracker after a count that makes a step, taken. -/
def trackerAtStep (s : State) (line : EncoderLine) (home : Bool) (micros : Nat) : Tracker :=
  stepTaken s.geometry s.engine.runState (countAt s line) (trackerAtCount s line home micros)

/-- R101: the limit of the position range that a step in a direction would leave. -/
def limitOf (g : Geometry) : Direction → Int
  | .right => g.bedWidth + 1023
  | .left => -1024

/-- R100, R101: a change of a line makes a step, and the step is taken. -/
def makesStepNow (s : State) (line : EncoderLine) : Prop :=
  completesPitch s.geometry (countAt s line) s.tracker.phase ∧
  s.tracker.position ≠ limitOf s.geometry (countAt s line)

/-- R90: a system's pin and points stand strictly behind the places they first act on. -/
def readyToStart (s : State) (k : Course) (sys : Fin 4) : Prop :=
  ∀ r c, (k.runs.filter (fun r => decide (r.entry.system = sys))).head? = some r →
    s.part? r.entry.zone = some c →
    let near : Int := match k.direction with
      | .right => c.given.left
      | .left => c.given.right
    before k.direction (s.tracker.position + s.geometry.pinOffsetOf sys k.direction) r.engage = true ∧
    before k.direction (s.tracker.position + s.geometry.pointOffsetOf .front sys k.direction)
      near = true ∧
    before k.direction (s.tracker.position + s.geometry.pointOffsetOf .back sys k.direction)
      near = true

/-- R143: the pin's next entry, the first OPEN entry of its system, with its index. -/
def nextOpen (k : Course) (sys : Fin 4) (i : Nat) (r : EntryRun) : Prop :=
  k.runs[i]? = some r ∧ r.entry.system = sys ∧ r.status = some .opened ∧
  ∀ (j : Nat) (q : EntryRun), j < i → k.runs[j]? = some q → q.entry.system = sys →
    q.status ≠ some .opened

/-- R143: the pin stands at a point of its entry. -/
def pinAt (s : State) (k : Course) (sys : Fin 4) (x : Int) : Prop :=
  s.tracker.position + s.geometry.pinOffsetOf sys k.direction = x

/-- R162: no occurrence of a needle-step, already taken, stops the course: not the report of a pass too fast, not
an underrun and not a missed catch, as far as each of them is enabled to stop. -/
def stepQuiet (s : State) (k : Course) : Prop :=
  (s.faults.policy.stops .overspeed = true →
    ¬ (s.tracker.slow = true ∧ s.tracker.overspeedReported = false)) ∧
  (s.faults.policy.stops .underrun = true → ∀ (bed : Bed) (sys : Fin 4) (sp : Span),
    (s.channel bed sys).span = some sp →
    insideSpan k.direction sp (pointNeedle s k bed sys) = true → (s.channel bed sys).queue ≠ []) ∧
  (s.faults.policy.stops .carrierMissed = true → ∀ (sys : Fin 4) (c : Fin 16) (i : Nat),
    pinEvent s k sys ≠ .miss c i)

/-- The state with a pin's record replaced. -/
def withPin (s : State) (sys : Fin 4) (p : PinState) : State :=
  { s with pins := s.pins.set sys { s.pins[sys] with state := p } }

/-- The state with a carrier's state replaced. -/
def withCarrier (s : State) (c : Fin 16) (x : CarrierState) : State :=
  { s with carriers := s.carriers.set c { s.carriers[c] with state := x } }

/-- The state with the status of an entry of the active plan replaced. -/
def withStatus (s : State) (k : Course) (i : Nat) (st : EntryStatus) : State :=
  { s with engine := { s.engine with course := some { k with
      runs := k.runs.modify i (fun r => { r with status := some st }) } } }

/-! ### The Tile Store (R25, R37, R39, R120) -/

/-- R25: the row pitch ceil(W/16). -/
def pitchOf (width : Nat) : Nat := (width + 15) / 16

/-- R25: the word at a number lies in the extent of a tile. -/
def inExtent (t : Tile) (w : Nat) : Prop :=
  t.base ≤ w ∧ w < t.base + t.height * pitchOf t.width

/-- R37: the turn at which a search from the one after the last preparer granted comes to a preparer. -/
def turnAfter (last i : Fin 4) : Nat := (i.val + 3 - last.val) % 4

/-- R39: the place of a requester in the circular order F0, F1, F2, F3, loader. -/
def circlePlace : Requester → Nat
  | .front i => i.val
  | .loader => 4

/-- R39: the turn at which a search from the one after the last granted comes to a requester. -/
def circleTurn (last r : Requester) : Nat := (circlePlace r + 4 - circlePlace last) % 5

/-- R36: a front preparer asks for a word. -/
def asksForWord (s : State) (i : Fin 4) : Prop := s.front[i].pendingRead.isSome = true

/-- R37: a front preparer asks for a word and holds fewer decisions than the urgency threshold. -/
def isUrgent (s : State) (i : Fin 4) : Prop :=
  asksForWord s i ∧ s.front[i].queue.length < s.geometry.urgency

/-- R36, R40: the loader has a word to write, or a word to read back. -/
def loaderAsks (s : State) : Prop :=
  s.store.buffer ≠ [] ∨ ∃ r, s.link.request = some r ∧ r.waiting ≠ []

/-- R36: a requester is pending. -/
def asksForPort (s : State) : Requester → Prop
  | .front i => asksForWord s i
  | .loader => loaderAsks s

/-- R14 to R18: the decisions of the needles of one fetch, from the float counter as it stands. -/
def fetchDecisions (z : ZonePart) (t : Tile) (slot : Fin 8) (data : BitVec 64) (good : Bool) :
    Nat → List Nat → List (Decision × Origin)
  | _, [] => []
  | count, n :: rest =>
    if good then
      let m := z.given.map[(pixelAt data (z.nibbleOf t n)).toFin]
      if m.slot = slot then
        ((match m.stitch with | .knit => .knit | .tuck => .tuck), .pattern) ::
          fetchDecisions z t slot data good 0 rest
      else if z.given.floatLimit = 0 then
        (.miss, .pattern) :: fetchDecisions z t slot data good (min (count + 1) 63) rest
      else if count + 1 < z.given.floatLimit then
        (.miss, .pattern) :: fetchDecisions z t slot data good (count + 1) rest
      else (.tuck, .tie) :: fetchDecisions z t slot data good 0 rest
    else (.miss, .fallback) :: fetchDecisions z t slot data good count rest

/-- R15 to R18: the float counter that the decisions of the needles of one fetch leave. -/
def fetchCount (z : ZonePart) (t : Tile) (slot : Fin 8) (data : BitVec 64) (good : Bool) :
    Nat → List Nat → Nat
  | count, [] => count
  | count, n :: rest =>
    let own := (z.given.map[(pixelAt data (z.nibbleOf t n)).toFin]).slot = slot
    let after :=
      if good = false then count
      else if own then 0
      else if z.given.floatLimit = 0 then min (count + 1) 63
      else if count + 1 < z.given.floatLimit then count + 1
      else 0
    fetchCount z t slot data good after rest

/-! ### The Zone Table (R43, R47, R49, R52 to R55) -/

/-- R49, R198: every field of a Define Zone payload lies in its range. -/
def zoneInRange (g : Geometry) (p : ZonePayload) : Prop :=
  p.left.toNat ≤ p.right.toNat ∧ p.right.toNat < g.bedWidth ∧
  -2048 ≤ p.anchor.toInt ∧ p.anchor.toInt ≤ 4095 ∧ -1023 ≤ p.shift.toInt ∧ p.shift.toInt ≤ 1023 ∧
  1 ≤ p.repeats.toNat ∧ p.repeats.toNat ≤ 4 ∧ 1 ≤ p.colours.toNat ∧ p.colours.toNat ≤ 8 ∧
  p.floatLimit.toNat ≤ 63 ∧ p.packed.toNat < 8 ∧ p.tile.toNat < 64 ∧
  ∀ v : Fin 16, p.map[v].toNat < 16 ∧ p.map[v].toNat % 8 < p.colours.toNat

/-- R198: an entry of a colour map as its byte gives it. -/
def mapEntryMatches (b : Byte) (m : MapEntry) : Prop :=
  m.slot.val = b.toNat % 8 ∧ m.stitch = (if b.toNat / 8 % 2 = 0 then .knit else .tuck)

/-- R198: the given fields that a payload in range carries. -/
def zoneMatches (p : ZonePayload) (f : ZoneFields) : Prop :=
  f.left = p.left.toNat ∧ f.right = p.right.toNat ∧ f.tile.val = p.tile.toNat ∧
  f.anchor = p.anchor.toInt ∧ f.shift = p.shift.toInt ∧ f.row = p.row.toNat ∧
  f.repeats = p.repeats.toNat ∧ f.colours = p.colours.toNat ∧ f.floatLimit = p.floatLimit.toNat ∧
  f.backing.number = p.packed.toNat % 4 ∧ f.mirror = decide (p.packed.toNat / 4 % 2 = 1) ∧
  ∀ v : Fin 16, mapEntryMatches p.map[v] f.map[v]

/-- R48: a range shares a needle with the projected range of another zone. -/
def overlapsProjected (s : State) (own : Fin 32) (left right : Nat) : Prop :=
  ∃ (j : Fin 32) (z : Zone) (r : Nat × Nat) (n : Nat), j ≠ own ∧ s.zones.places[j] = some z ∧
    z.projected? = some r ∧ r.1 ≤ n ∧ n ≤ r.2 ∧ left ≤ n ∧ n ≤ right

/-- Every projected range runs from its left edge to its right one. -/
def rangesOrdered (s : State) : Prop :=
  ∀ (i : Fin 32) (z : Zone) (r : Nat × Nat), s.zones.places[i] = some z → z.projected? = some r →
    r.1 ≤ r.2

/-- R47: no needle lies in both ranges. -/
def shareNoNeedle (r q : Nat × Nat) : Prop :=
  ∀ n : Nat, ¬ (r.1 ≤ n ∧ n ≤ r.2 ∧ q.1 ≤ n ∧ n ≤ q.2)

/-- R47: the needle range of a current part. -/
def ZonePart.range (c : ZonePart) : Nat × Nat := (c.given.left, c.given.right)

/-- R27: the reference counts when one zone field leaves a tile and another comes to name a tile, in this
order; every other tile stands. -/
def referencesMoved (s t : State) (old new : Option (Fin 64)) : Prop :=
  ∀ j : Fin 64, t.store.tiles[j] = s.store.tiles[j].map (fun u => { u with
    references := (u.references - if old = some j then 1 else 0) + if new = some j then 1 else 0 })

/-- R46: the run states in which edits are staged. -/
def staging (s : State) : Prop := s.engine.runState = .prepared ∨ s.engine.runState = .knitting

/-- R52, R198: each given field of an Edit Zone payload lies in its own range, a row by R53 only (log 20). -/
def editInRange (g : Geometry) (p : EditPayload) : Prop :=
  p.reserved = 0 ∧ (∀ x, p.left = some x → x.toNat < g.bedWidth) ∧
  (∀ x, p.right = some x → x.toNat < g.bedWidth) ∧ (∀ x, p.tile = some x → x.toNat < 64) ∧
  (∀ x, p.anchor = some x → -2048 ≤ x.toInt ∧ x.toInt ≤ 4095) ∧
  (∀ x, p.shift = some x → -1023 ≤ x.toInt ∧ x.toInt ≤ 1023) ∧
  (∀ x, p.repeats = some x → 1 ≤ x.toNat ∧ x.toNat ≤ 4) ∧
  (∀ x, p.colours = some x → 1 ≤ x.toNat ∧ x.toNat ≤ 8) ∧
  (∀ x, p.floatLimit = some x → x.toNat ≤ 63) ∧ (∀ x, p.backing = some x → x.toNat ≤ 3) ∧
  (∀ x, p.mirror = some x → x.toNat ≤ 1) ∧
  (∀ m, p.map = some m → ∀ v : Fin 16, m[v].toNat < 16)

/-- R198: a field that a payload gives is given with the value it carries, and no other field is. -/
def givenAs {α β : Type} (given : Option α) (field : Option β) (as : α → β → Prop) : Prop :=
  match given, field with
  | some x, some y => as x y
  | none, none => True
  | _, _ => False

/-- R198: the fields that an Edit Zone payload gives. -/
def editMatches (p : EditPayload) (f : PendingFields) : Prop :=
  givenAs p.left f.left (fun x y => y = x.toNat) ∧
  givenAs p.right f.right (fun x y => y = x.toNat) ∧
  givenAs p.tile f.tile (fun x y => y.val = x.toNat) ∧
  givenAs p.anchor f.anchor (fun x y => y = x.toInt) ∧
  givenAs p.shift f.shift (fun x y => y = x.toInt) ∧
  givenAs p.row f.row (fun x y => y = x.toNat) ∧
  givenAs p.repeats f.repeats (fun x y => y = x.toNat) ∧
  givenAs p.colours f.colours (fun x y => y = x.toNat) ∧
  givenAs p.floatLimit f.floatLimit (fun x y => y = x.toNat) ∧
  givenAs p.backing f.backing (fun x y => y.number = x.toNat) ∧
  givenAs p.mirror f.mirror (fun x y => y = decide (x.toNat = 1)) ∧
  givenAs p.map f.map (fun x y => ∀ v : Fin 16, mapEntryMatches x[v] y[v])

/-- R52, R195: a payload whose mask names no field. -/
def givesNothing (f : PendingFields) : Prop := f = PendingFields.empty

/-- R54: the current part that an edit leaves, on a tile of this width. -/
def editedPart (c : ZonePart) (f : PendingFields) (width : Nat) (c' : ZonePart) : Prop :=
  c'.given.left = f.left.getD c.given.left ∧ c'.given.right = f.right.getD c.given.right ∧
  c'.given.tile = f.tile.getD c.given.tile ∧ c'.given.anchor = f.anchor.getD c.given.anchor ∧
  c'.given.shift = f.shift.getD c.given.shift ∧ c'.given.mirror = f.mirror.getD c.given.mirror ∧
  c'.given.repeats = f.repeats.getD c.given.repeats ∧
  c'.given.colours = f.colours.getD c.given.colours ∧ c'.given.map = f.map.getD c.given.map ∧
  c'.given.backing = f.backing.getD c.given.backing ∧
  c'.given.floatLimit = f.floatLimit.getD c.given.floatLimit ∧
  c'.given.row = (match f.row, f.tile with
    | some r, _ => r
    | none, some _ => 0
    | none, none => c.given.row) ∧
  c'.repeatIndex = (if f.tile = none ∧ f.row = none ∧ f.repeats = none then c.repeatIndex else 0) ∧
  c'.served = (if f.tile = none ∧ f.row = none ∧ f.colours = none ∧ f.map = none then c.served
    else 0) ∧
  (c'.effective : Int) = (if f.tile = none ∧ f.anchor = none then (c.effective : Int)
    else c'.given.anchor % (width : Int)) ∧
  c'.backingCounter = c.backingCounter

/-- R53: the value an edit leaves a field with, as the agreement test reads it: the one given, else the pending
one, else the one that stands. -/
def resulting {α : Type} (given pending : Option α) (standing : α) : α :=
  given.getD (pending.getD standing)

/-- R53: the agreement test of an edit of a zone. -/
def agrees (s : State) (base : ZoneFields) (pending f : PendingFields) : Prop :=
  resulting f.left pending.left base.left ≤ resulting f.right pending.right base.right ∧
  (∀ v : Fin 16, (resulting f.map pending.map base.map)[v].slot.val <
    resulting f.colours pending.colours base.colours) ∧
  (f.tile ≠ none ∨ f.row ≠ none →
    (match f.row, pending.row with
      | some r, _ => r
      | none, some r => r
      | none, none => 0) < s.heightOf (resulting f.tile pending.tile base.tile))

/-- R55: a pending part with the fields of an edit written over it. -/
def writtenOver (pending f p : PendingFields) : Prop :=
  p.left = f.left.or pending.left ∧ p.right = f.right.or pending.right ∧
  p.tile = f.tile.or pending.tile ∧ p.anchor = f.anchor.or pending.anchor ∧
  p.shift = f.shift.or pending.shift ∧ p.mirror = f.mirror.or pending.mirror ∧
  p.row = f.row.or pending.row ∧ p.repeats = f.repeats.or pending.repeats ∧
  p.colours = f.colours.or pending.colours ∧ p.map = f.map.or pending.map ∧
  p.backing = f.backing.or pending.backing ∧ p.floatLimit = f.floatLimit.or pending.floatLimit

/-- R56: a queued, prepared or active plan has an entry naming the zone. -/
def planNames (s : State) (i : Fin 32) : Prop :=
  (∃ p ∈ s.engine.queue, ∃ e ∈ p.entries, e.zone = i) ∨
  (∃ k, s.engine.course = some k ∧ ∃ r ∈ k.runs, r.entry.zone = i)

/-- R66: some zone has a pending part. -/
def someZonePending (s : State) : Prop :=
  ∃ (i : Fin 32) (z : Zone), s.zones.places[i] = some z ∧ z.hasPending = true

/-! ### Yarn carriers (R136, R137) -/

/-- R136: a position lies within C needles of an interval. -/
def withinOf (clearance : Nat) (x a b : Int) : Prop :=
  (min a b ≤ x ∧ x ≤ max a b) ∨ (x - a).natAbs < clearance ∨ (x - b).natAbs < clearance

/-- R137: a position fails the clearance test for a carrier. -/
def clearanceFails (s : State) (c : Fin 16) (x : Int) : Prop :=
  (∃ r, namingRun s (partnerOf c) = some r ∧ withinOf s.geometry.clearance x r.rest r.release) ∨
  (namingRun s (partnerOf c) = none ∧
    ∃ y, s.carriers[partnerOf c].state = .resting y ∧ (x - y).natAbs < s.geometry.clearance)

/-- R139, R140: a carrier is held by a pin, or a queued, prepared or active plan names it. -/
def carrierHeld (s : State) (c : Fin 16) : Prop :=
  (∃ pin i, s.carriers[c].state = .carried pin i) ∨
  (∃ p ∈ s.engine.queue, ∃ e ∈ p.entries, e.carrier = c) ∨
  (∃ k, s.engine.course = some k ∧ ∃ r ∈ k.runs, r.entry.carrier = c)

/-! ### The geometry record (R111, R175, R176, R195) -/

/-- R175, R176: a given field lies in its own range; number 0 stands for the reserved mask bits. H0 is tested
with N only in the next check (log 19). -/
def fieldInRange (p : ConfigurePayload) : Nat → Prop
  | 0 => p.reserved = 0
  | 1 => ∀ x, p.bedWidth = some x → 64 ≤ x.toNat ∧ x.toNat ≤ 2048
  | 2 => ∀ x, p.systems = some x → 1 ≤ x.toNat ∧ x.toNat ≤ 4
  | 3 => ∀ x, p.pulses = some x → x.toNat = 1 ∨ x.toNat = 2 ∨ x.toNat = 4 ∨ x.toNat = 8
  | 4 => ∀ x, p.homeNeedle = some x → x.toNat ≤ 2047
  | 5 => ∀ x, p.homeTolerance = some x → x.toNat ≤ 3
  | 6 => ∀ v, p.pointOffsets = some v → ∀ i : Fin 16, -512 ≤ v[i].toInt ∧ v[i].toInt ≤ 511
  | 7 => ∀ v, p.pinOffsets = some v → ∀ i : Fin 8, -512 ≤ v[i].toInt ∧ v[i].toInt ≤ 511
  | 8 => ∀ x, p.engageLead = some x → x.toNat ≤ 15
  | 9 => ∀ x, p.catchWindow = some x → 1 ≤ x.toNat ∧ x.toNat ≤ 15
  | 10 => ∀ x, p.overshoot = some x → x.toNat ≤ 31
  | 11 => ∀ x, p.clearance = some x → 1 ≤ x.toNat ∧ x.toNat ≤ 15
  | 12 => ∀ x, p.fastLimit = some x → 50 ≤ x.toNat ∧ x.toNat ≤ 65534
  | 13 => ∀ x, p.clearLimit = some x → 51 ≤ x.toNat ∧ x.toNat ≤ 65535
  | 14 => ∀ x, p.arbiterMode = some x → x.toNat ≤ 1
  | 15 => ∀ x, p.urgency = some x → 1 ≤ x.toNat ∧ x.toNat ≤ 47
  | 17 => ∀ x, p.pinPolarities = some x → x.toNat < 16
  | _ => True

/-- R176: the resulting value of a number field. -/
def resultingNat {n : Nat} (given : Option (BitVec n)) (old new : Nat) : Prop :=
  new = (match given with
    | some x => x.toNat
    | none => old)

/-- R176, R195: the geometry that a Configure with values in range results in. -/
def resultsIn (g : Geometry) (p : ConfigurePayload) (r : Geometry) : Prop :=
  resultingNat p.bedWidth g.bedWidth r.bedWidth ∧ resultingNat p.systems g.systems r.systems ∧
  resultingNat p.pulses g.pulses r.pulses ∧ resultingNat p.homeNeedle g.homeNeedle r.homeNeedle ∧
  resultingNat p.homeTolerance g.homeTolerance r.homeTolerance ∧
  resultingNat p.engageLead g.engageLead r.engageLead ∧
  resultingNat p.catchWindow g.catchWindow r.catchWindow ∧
  resultingNat p.overshoot g.overshoot r.overshoot ∧
  resultingNat p.clearance g.clearance r.clearance ∧
  resultingNat p.fastLimit g.fastLimit r.fastLimit ∧
  resultingNat p.clearLimit g.clearLimit r.clearLimit ∧ resultingNat p.urgency g.urgency r.urgency ∧
  (∀ x, p.arbiterMode = some x →
    r.arbiterMode = (if x.toNat = 0 then .alternating else .rotating)) ∧
  (p.arbiterMode = none → r.arbiterMode = g.arbiterMode) ∧
  (∀ v, p.pointOffsets = some v → ∀ i : Fin 16, r.pointOffset[i] = v[i].toInt) ∧
  (p.pointOffsets = none → r.pointOffset = g.pointOffset) ∧
  (∀ v, p.pinOffsets = some v → ∀ i : Fin 8, r.pinOffset[i] = v[i].toInt) ∧
  (p.pinOffsets = none → r.pinOffset = g.pinOffset) ∧
  (∀ x, p.coilPolarities = some x → ∀ i : Fin 16, r.coilInverted[i] = x.getLsbD i.val) ∧
  (p.coilPolarities = none → r.coilInverted = g.coilInverted) ∧
  (∀ x, p.pinPolarities = some x → ∀ i : Fin 4, r.pinInverted[i] = x.getLsbD i.val) ∧
  (p.pinPolarities = none → r.pinInverted = g.pinInverted)

/-- R176, check 4: a bed width would strand a zone edge or a rest position. -/
def strandsRecord (s : State) (width : Nat) : Prop :=
  (∃ (i : Fin 32) (z : Zone) (c : ZonePart), s.zones.places[i] = some z ∧ z.current? = some c ∧
    (width ≤ c.given.left ∨ width ≤ c.given.right)) ∨
  (∃ (c : Fin 16) (x : Int), s.carriers[c].state = .resting x ∧ (x < -256 ∨ (width : Int) + 255 < x))

/-- R176, check 5: two RESTING carriers of one rail lie closer than a clearance. -/
def crowdsRail (s : State) (clearance : Nat) : Prop :=
  ∃ (c : Fin 16) (x y : Int), s.carriers[c].state = .resting x ∧
    s.carriers[partnerOf c].state = .resting y ∧ (x - y).natAbs < clearance

/-- R111: the tracker under a new geometry. -/
def retracked (old new : Geometry) (t : Tracker) : Tracker :=
  let c := if new.bedWidth = old.bedWidth then t.position
    else max (-1024) (min t.position ((new.bedWidth : Int) + 1023))
  { t with
    phase := if new.pulses = old.pulses then t.phase else 0, position := c
    referenced := t.referenced && decide (new.pulses = old.pulses ∧
      new.homeNeedle = old.homeNeedle ∧ c = t.position) }

/-- R130: a lower S puts a system out of use. -/
def putOutOfUse (old new : Geometry) (sys : Fin 4) : Prop :=
  new.systems < old.systems ∧ new.systems ≤ sys.val

/-! ### What a command carries -/

/-- A command is a request, or a received frame that carries it. -/
def carries (c i : Instr) : Prop :=
  c = i ∨ ∃ w, c = .writeRequest w ∧ readFrame w.first w.bytes = .request i

/-- The commands that may set the part to its power-on values. -/
def startsAfresh (c : Instr) : Prop :=
  c = .reset ∨ (∃ l, c = .powerOn l) ∨ ∃ r, carries c (.restart r)

/-! ### Runs -/

/-- The outcome of n steps. -/
def after (n : Nat) (s : State) : Outcome := Sys2Proof.core.run n s

/-! ### Laws that every step keeps -/

/-- The pixel memory has its canonical form. -/
def memoryLaw (s : State) : Prop := Memory.wf s.store.memory = true

/-- R159: a present record counts 1 to 255 occurrences. -/
def recordLaw (s : State) : Prop :=
  ∀ i : Fin 11, ∀ r, s.faults.records[i] = some r → 1 ≤ r.count ∧ r.count ≤ 255

/-- R79: the plans alternate in direction from one that runs in direction d. -/
def alternates : Direction → List Plan → Bool
  | _, [] => true
  | d, p :: rest => decide (p.direction = opposite d) && alternates p.direction rest

/-- R69, R79, R84: the plans that a run state has; the zones of a prepared or active plan have current parts. -/
def planLaw (s : State) : Prop :=
  match s.engine.runState, s.engine.course with
  | .prepared, some k | .knitting, some k =>
    s.engine.queue.length ≤ 4 ∧ alternates k.direction s.engine.queue = true ∧
    ∀ r ∈ k.runs, (s.part? r.entry.zone).isSome = true
  | .setup, none | .ready, none | .held, none => s.engine.queue = []
  | _, _ => False

/-- R100, R101, R175: N, S, P and H0 lie in their ranges, the phase below P and c in the position range. -/
def positionLaw (s : State) : Prop :=
  64 ≤ s.geometry.bedWidth ∧ s.geometry.bedWidth ≤ 2048 ∧
  1 ≤ s.geometry.systems ∧ s.geometry.systems ≤ 4 ∧
  (s.geometry.pulses = 1 ∨ s.geometry.pulses = 2 ∨ s.geometry.pulses = 4 ∨ s.geometry.pulses = 8) ∧
  s.tracker.phase < s.geometry.pulses ∧
  s.geometry.homeNeedle < s.geometry.bedWidth ∧
  -1024 ≤ s.tracker.position ∧ s.tracker.position ≤ s.geometry.bedWidth + 1023

/-- R26: every extent lies in pixel memory, and no two extents share a word. -/
def tileLaw (s : State) : Prop :=
  (∀ i : Fin 64, ∀ t, s.store.tiles[i] = some t → t.inRange = true ∧ t.limit ≤ 65536) ∧
  (∀ i j : Fin 64, i ≠ j → ∀ t u, s.store.tiles[i] = some t → s.store.tiles[j] = some u →
    extentsMeet t u = false)

/-- R27: how many fields of a zone name a tile: its current-tile field and its pending-tile field. -/
def Zone.namings (i : Fin 64) : Zone → Nat
  | .pending f => if f.tile = i then 1 else 0
  | .live c p => (if c.given.tile = i then 1 else 0) + if p.bind (·.tile) = some i then 1 else 0
  | .retiring c p => (if c.given.tile = i then 1 else 0) + if p.tile = some i then 1 else 0

/-- R27: a tile's reference count is the number of zone fields that name it, and no field names a place without
a record. -/
def referenceLaw (s : State) : Prop :=
  ∀ i : Fin 64, ((s.store.tiles[i].map (·.references)).getD 0 =
    (s.zones.places.toList.map (fun z => (z.map (Zone.namings i)).getD 0)).sum)

/-- R122: no decision queue holds more than 48 decisions. -/
def queueLaw (s : State) : Prop :=
  ∀ sys : Fin 4, s.front[sys].queue.length ≤ 48 ∧ s.back[sys].queue.length ≤ 48

/-- R128, R130: outside KNITTING every coil pair is off but for a force, and forces stand in SETUP alone. -/
def coilLaw (s : State) : Prop :=
  ∀ (bed : Bed) (sys : Fin 4),
    (s.engine.runState = .setup → (s.channel bed sys).coil = (s.channel bed sys).force.getD .off) ∧
    (s.engine.runState ≠ .setup → (s.channel bed sys).force = none ∧ s.pins[sys].force = none) ∧
    (s.engine.runState ≠ .setup → s.engine.runState ≠ .knitting → (s.channel bed sys).coil = .off)

/-- R116, R131: with no plan prepared or active every channel is idle. -/
def idleLaw (s : State) : Prop :=
  ¬ staging s → ∀ (bed : Bed) (sys : Fin 4),
    (s.channel bed sys).span = none ∧ (s.channel bed sys).preparer = .idle ∧
    (s.channel bed sys).next = .none ∧ (s.channel bed sys).pendingRead = none ∧
    (s.channel bed sys).fetch = none ∧ (s.channel bed sys).queue = []

/-- R46, R47: parts and a mark are pending in PREPARED and KNITTING alone, and neither the current nor the
projected ranges of two zones overlap. -/
def zoneLaw (s : State) : Prop :=
  (¬ staging s → nothingPending s) ∧ rangesOrdered s ∧
  ∀ (i j : Fin 32) (z y : Zone), i ≠ j → s.zones.places[i] = some z → s.zones.places[j] = some y →
    (∀ r q, z.projected? = some r → y.projected? = some q → shareNoNeedle r q) ∧
    (∀ c b, z.current? = some c → y.current? = some b → shareNoNeedle c.range b.range)

/-- R43, R45: the given fields of a zone lie in their ranges, with the tile they name. -/
def givenLaw (s : State) (f : ZoneFields) : Prop :=
  f.left ≤ f.right ∧ f.right < s.geometry.bedWidth ∧ -2048 ≤ f.anchor ∧ f.anchor ≤ 4095 ∧
  -1023 ≤ f.shift ∧ f.shift ≤ 1023 ∧ 1 ≤ f.repeats ∧ f.repeats ≤ 4 ∧ 1 ≤ f.colours ∧ f.colours ≤ 8 ∧
  f.floatLimit ≤ 63 ∧ (∀ v : Fin 16, f.map[v].slot.val < f.colours) ∧
  ∃ t, s.store.tiles[f.tile] = some t ∧ f.row < t.height

/-- R45: the derived fields of a current part lie in their ranges: E below W, the repeat index below m, and
a served set of slots below k that never holds all of them. -/
def derivedLaw (s : State) (c : ZonePart) : Prop :=
  (∀ t, s.store.tiles[c.given.tile] = some t → c.effective < t.width) ∧
  c.repeatIndex < c.given.repeats ∧
  (∀ i : Fin 8, c.served.getLsbD i.val = true → i.val < c.given.colours) ∧
  ∃ i : Fin 8, i.val < c.given.colours ∧ c.served.getLsbD i.val = false

/-- R43, R45, R53: the fields of every zone lie in their ranges, and so will those of a LIVE zone once its pending
part is applied. -/
def partLaw (s : State) : Prop :=
  ∀ (i : Fin 32) (z : Zone), s.zones.places[i] = some z →
    match z with
    | .pending f => givenLaw s f
    | .live c p => givenLaw s c.given ∧ derivedLaw s c ∧
        ∀ q, p = some q → givenLaw s (replaceFields c.given q)
    | .retiring c _ => givenLaw s c.given ∧ derivedLaw s c

/-- R80: the entries name carriers of different rails. -/
def railsApart (entries : List Entry) : Prop :=
  entries.Pairwise (fun e f => e.carrier.val / 2 ≠ f.carrier.val / 2)

/-- The edge of a current part that a pass meets last. -/
def farOf (d : Direction) (c : ZonePart) : Int :=
  match d with
  | .right => c.given.right
  | .left => c.given.left

/-- The edge of a current part that a pass meets first. -/
def nearOf (d : Direction) (c : ZonePart) : Int :=
  match d with
  | .right => c.given.left
  | .left => c.given.right

/-- R84 to R86, R144: an entry of a prepared or active plan as its preparation left it: its zone is LIVE, its slot
below k, its points those of its carrier's rest position and of its zone's edges, and the end position
beyond its release point and its zone for its system's pin and points. -/
def runLaw (s : State) (k : Course) (r : EntryRun) : Prop :=
  ∃ c q, s.zones.places[r.entry.zone] = some (.live c q) ∧ r.entry.slot.val < c.given.colours ∧
    r.engage = engageFrom s.geometry k.direction r.rest ∧
    r.release = releaseBeyond s.geometry k.direction c ∧
    atOrBefore k.direction r.rest (nearOf k.direction c) = true ∧
    before k.direction (r.release - s.geometry.pinOffsetOf r.entry.system k.direction)
      k.endPosition = true ∧
    ∀ bed, before k.direction (farOf k.direction c -
      s.geometry.pointOffsetOf bed r.entry.system k.direction) k.endPosition = true

/-- R80, R84 to R86: what stands of a prepared or active plan, and of every queued one. -/
def courseLaw (s : State) : Prop :=
  (∀ p ∈ s.engine.queue, railsApart p.entries) ∧
  ∀ k, s.engine.course = some k →
    railsApart (k.runs.map (·.entry)) ∧ (∀ r ∈ k.runs, runLaw s k r) ∧
    k.runs.Pairwise (fun a b => a.entry.system = b.entry.system → ∀ ca cb,
      s.part? a.entry.zone = some ca → s.part? b.entry.zone = some cb →
      before k.direction (farOf k.direction ca) (nearOf k.direction cb) = true)

/-- R143, R145 to R148: a pin that is down serves an entry of its system, in the direction of the course and short
of the entry's release point. -/
def servesEntry (s : State) (k : Course) (sys : Fin 4) (c : Fin 16) (i : Nat) (d : Direction)
    (st : EntryStatus) : Prop :=
  d = k.direction ∧ ∃ r, k.runs[i]? = some r ∧ r.entry.system = sys ∧ r.entry.carrier = c ∧
    r.status = some st ∧
    before d (s.tracker.position + s.geometry.pinOffsetOf sys d) r.release = true

/-- R104, R142, R150, R152: outside KNITTING every pin is UP and no carrier is CARRIED. In KNITTING the position is
referenced, a pin that is down serves an entry, OPEN while it is CATCHING and FED while it is HOLDING, a carrier
is CARRIED exactly while a pin is HOLDING it, and an entry is FED only then. -/
def pinLaw (s : State) : Prop :=
  (s.engine.runState ≠ .knitting → (∀ sys : Fin 4, s.pins[sys].state = .up) ∧
    ∀ (c : Fin 16) (sys : Fin 4) (i : Nat), s.carriers[c].state ≠ .carried sys i) ∧
  ∀ k, s.engine.runState = .knitting → s.engine.course = some k → s.tracker.referenced = true ∧
    (∀ sys : Fin 4, match s.pins[sys].state with
      | .up => True
      | .catching c _ i d => servesEntry s k sys c i d .opened
      | .holding c i d => servesEntry s k sys c i d .fed) ∧
    (∀ (c : Fin 16) (sys : Fin 4) (i : Nat), s.carriers[c].state = .carried sys i ↔
      s.pins[sys].state = .holding c i k.direction) ∧
    ∀ (i : Nat) (r : EntryRun), k.runs[i]? = some r → r.status ≠ none ∧
      (r.status = some .fed →
        s.pins[r.entry.system].state = .holding r.entry.carrier i k.direction)

/-- R85, R136, R137: two RESTING carriers of a rail stand at least C apart. A carrier that a prepared or active plan
names is installed, and rests nowhere but where its entry takes it up or sets it down; its rail partner
rests nowhere near its travel interval. -/
def railLaw (s : State) : Prop :=
  (∀ (c : Fin 16) (x y : Int), s.carriers[c].state = .resting x →
    s.carriers[partnerOf c].state = .resting y → s.geometry.clearance ≤ (x - y).natAbs) ∧
  ∀ k r, s.engine.course = some k → r ∈ k.runs →
    s.carriers[r.entry.carrier].state ≠ .absent ∧
    (∀ x, s.carriers[r.entry.carrier].state = .resting x → x = r.rest ∨ x = r.release) ∧
    ∀ y, s.carriers[partnerOf r.entry.carrier].state = .resting y →
      ¬ withinOf s.geometry.clearance y r.rest r.release

/-- R122, R123: the first needle number of a span that the point has not reached, which lies past the span's end
where it has reached them all. -/
def firstUnreached (s : State) (k : Course) (bed : Bed) (sys : Fin 4) (sp : Span) : Int :=
  let n := pointNeedle s k bed sys
  if s.engine.runState = .knitting ∧ before k.direction n sp.first = false then ahead k.direction n 1
  else sp.first

/-- R122: the place in pass order behind a channel's queue, where its preparer goes on. -/
def queueEnd (s : State) (k : Course) (bed : Bed) (sys : Fin 4) (sp : Span) : Int :=
  ahead k.direction (firstUnreached s k bed sys sp) (s.channel bed sys).queue.length

/-- R115, R118, R119, R122: the spans are those of the plan's entries; a queue holds the decisions of the needles
from the first unreached one on, one after another and all inside the span; the next needle follows the last
of them; and the start needle of a fetch is that needle, or one that underruns have passed since. -/
def orderLaw (s : State) : Prop :=
  ∀ k, s.engine.course = some k → ∀ (bed : Bed) (sys : Fin 4),
    s.front[sys].span = frontSpan s k.direction (entriesOf sys k.runs) ∧
    s.back[sys].span = (s.front[sys].span).bind
      (backSpan s.geometry.bedWidth k.racking k.direction) ∧
    let ch := s.channel bed sys
    match ch.span with
    | none => ch.preparer = .idle ∧ ch.next = .none ∧ ch.queue = [] ∧ ch.pendingRead = none ∧
        ch.fetch = none
    | some sp =>
      (∀ (i : Nat) (q : Queued), ch.queue[i]? = some q →
        (q.needle : Int) = ahead k.direction (firstUnreached s k bed sys sp) i ∧
        insideSpan k.direction sp q.needle = true) ∧
      (match ch.next with
        | .none => False
        | .at n => (n : Int) = queueEnd s k bed sys sp ∧ insideSpan k.direction sp n = true
        | .past => before k.direction sp.last (queueEnd s k bed sys sp) = true) ∧
      ∀ f, ch.fetch = some f → insideSpan k.direction sp f.start = true ∧
        ((f.start : Int) = queueEnd s k bed sys sp ∨
          (ch.queue = [] ∧ s.engine.runState = .knitting ∧
            atOrBefore k.direction f.start (pointNeedle s k bed sys) = true))

/-- R35, R113, R117, R119, R133: what each state of a preparer says of its next needle, its queue and its reads;
and the read of a front preparer that is in flight is its fetch, or is stale. -/
def preparerLaw (s : State) : Prop :=
  (∀ (bed : Bed) (sys : Fin 4),
    let ch := s.channel bed sys
    match ch.preparer with
    | .idle => ch.span = none ∧ ch.next = .none ∧ ch.pendingRead = none ∧ ch.fetch = none ∧
        ch.queue = []
    | .filling => bed = .front ∧ ch.fetch = none ∧ ch.queue.length < 48 ∧
        ∃ k n i r z t, s.engine.course = some k ∧ ch.next = .at n ∧
          entryAt s k .front sys n = some (i, r) ∧ s.part? r.entry.zone = some z ∧
          s.store.tiles[z.given.tile] = some t ∧ ch.pendingRead = some (z.wordOf t n)
    | .fetching => bed = .front ∧ ch.fetch.isSome = true ∧ ch.pendingRead = none
    | .full => ch.queue.length = 48 ∧ (∃ n, ch.next = .at n) ∧ ch.pendingRead = none ∧
        ch.fetch = none
    | .finished => ch.next = .past ∧ ch.pendingRead = none ∧ ch.fetch = none) ∧
  ∀ sys : Fin 4, s.back[sys].stale = false ∧
    (∀ w, s.store.inFlight = some (.fetch sys w) →
      s.front[sys].stale = true ∨ ∃ n, s.front[sys].fetch = some ⟨w, n⟩) ∧
    (∀ f, s.front[sys].fetch = some f →
      s.front[sys].stale = false ∧ s.store.inFlight = some (.fetch sys f.word)) ∧
    (s.front[sys].stale = true → ∃ w, s.store.inFlight = some (.fetch sys w))

/-- The laws together. -/
def laws (s : State) : Prop :=
  memoryLaw s ∧ recordLaw s ∧ planLaw s ∧ positionLaw s ∧ tileLaw s ∧ referenceLaw s ∧ queueLaw s ∧
  coilLaw s ∧ idleLaw s ∧ zoneLaw s ∧ partLaw s ∧ courseLaw s ∧ pinLaw s ∧ railLaw s ∧ orderLaw s ∧
  preparerLaw s

end Sys2Proof.Machine
end

