-- ==== Sys2Proof/Certificates/Slice0/Obligations.lean ====
section
/-! DEFINITION. The statements for the provers. Where one speaks of a value or an order that the model
chose, its docstring names the log entry. -/

section
open Sys2Proof Sys2Proof.Machine

/-! ### The part as a whole -/

/-- The command at the front of the queue is carried out with the queue's rest; an empty queue idles. The
queue is the model's (log 2). -/
def Obligations.StepTakesFrontCommand : Prop :=
  ∀ (c : Instr) (s : State) (q : List Instr),
    step (s.withPending (c :: q)) = exec c (s.withPending q) ∧
    step (s.withPending []) = .next (s.withPending [])

/-- Every command completes and leaves the queue, and none is refused. An access to a word that does not
exist stops the machine (log 27). -/
def Obligations.EveryCommandCompletes : Prop :=
  (∀ (c : Instr) (s : State), (∀ a, s.store.inFlight = some a → a.word < memorySize) →
    ∃ t, exec c s = .next t ∧ t.pending = s.pending) ∧
  (∀ (u : PixelWord) (s : State) (a : Access), s.inReset = false → s.store.inFlight = some a →
    memorySize ≤ a.word → exec (.storeAccessComplete u) s = .fault (.noSuchWord a.word))

/-- Section 9.3: RESET_N low takes the part into reset whatever it was doing and keeps none of its state; in
reset the outputs stand at their reset levels and nothing but the rise of RESET_N is taken. The rise gives
every block its power-on values, takes the first sample as the previous sample, and begins the memory clear.
The queue of commands and the counter of the open orders are the model's own (log 29). -/
def Obligations.ResetAndPowerOn : Prop :=
  (∀ s : State, exec .reset s = .next { State.reset with
    inReset := true, freeCount := s.freeCount, pending := s.pending }) ∧
  (∀ s : State, s.inReset = true → outputsReleased s ∧
    ∀ c : Instr, c ≠ .reset → (∀ l, c ≠ .powerOn l) → exec c s = .next s) ∧
  ∀ (s : State) (l : InputLevels), ∃ t, exec (.powerOn l) s = .next t ∧ t.inReset = false ∧
    t.geometry = {
      bedWidth := 512, systems := 2, pulses := 4, homeNeedle := 0, homeTolerance := 1,
      pointOffset := Vector.replicate 16 0, pinOffset := Vector.replicate 8 0, engageLead := 2,
      catchWindow := 4, overshoot := 4, clearance := 2, fastLimit := 600, clearLimit := 700,
      arbiterMode := .alternating, urgency := 8, coilInverted := Vector.replicate 16 false,
      pinInverted := Vector.replicate 4 false } ∧
    t.engine = {
      runState := .setup, course := none, queue := [], expected := none,
      courseNumber := 0 } ∧
    (∀ i : Fin 32, t.zones.places[i] = none) ∧ t.zones.pendingMark = none ∧ t.zones.lastMark = 0 ∧
    (∀ i : Fin 64, t.store.tiles[i] = none) ∧ t.store.cursor = none ∧ t.store.buffer = [] ∧
    t.store.inFlight = some (.clear 0) ∧ t.store.lastGranted = .loader ∧ t.store.lastPreparer = 3 ∧
    (∀ i : Fin 16, t.carriers[i] = { state := .absent, yarn := 0 }) ∧
    (∀ i : Fin 4, t.pins[i] = { state := .up, force := none, sense := l.catchSense[i] } ∧
      t.front[i] = {
        span := none, preparer := .idle, next := .none, pendingRead := none,
        fetch := none, stale := false, queue := [], coil := .off, force := none } ∧
      t.back[i] = t.front[i]) ∧
    t.tracker = {
      encA := l.encA, encB := l.encB, home := l.home, countDirection := none,
      phase := 0, position := 0, referenced := false, correction := none, lastStep := none,
      interval := 65535, sinceStep := 0, slow := false, overspeedReported := false } ∧
    (∀ i : Fin 11, t.faults.records[i] = none ∧ t.faults.policy.faultAttention[i] = true) ∧
    (∀ i : Fin 6, t.faults.policy.stopEnable[i] = true) ∧
    (∀ i : Fin 3, t.faults.policy.eventAttention[i] = true) ∧
    t.faults.courseDone = false ∧ t.faults.markDone = false ∧ t.faults.loadEmpty = false ∧
    t.faults.haltAsserted = l.haltAsserted ∧ attnLine t = false ∧ stopReq t = false ∧
    t.link.ready = false ∧ t.link.request = none ∧ t.link.reply = none ∧ t.link.dropped = false

/-- The reset state meets every law of the part. -/
def Obligations.ResetMeetsLaws : Prop := laws State.reset

/-- R24: the power-on clear writes the words 0 to 65535 one after another with sixteen zero pixels and
parity bit 0; the link shows READY from the completion of the last write on, and not before; the port is
then free and every word passes its check. -/
def Obligations.MemoryClearRunsThrough : Prop :=
  ∀ (s : State) (us : List PixelWord), s.inReset = false → s.store.inFlight = some (.clear 0) →
    s.link.ready = false → memoryLaw s → us.length = memorySize →
    s.pending = us.map Instr.storeAccessComplete →
    (∀ n, n < memorySize → ∃ t, after n s = .next t ∧ t.link.ready = false ∧
      t.store.inFlight = some (.clear n)) ∧
    ∃ t, after memorySize s = .next t ∧
      t = { s with
        store := { s.store with memory := t.store.memory, inFlight := none }
        link := { s.link with ready := true }, pending := [] } ∧
      ∀ w, w < memorySize → readWord t.store.memory w = { data := 0, parity := false } ∧
        parityPasses (readWord t.store.memory w) = true

/-- Sections 9.4, 2.5, 5.5 and 10.9: a Restart sets every block to its power-on state but for pixel memory and the
access in flight, takes the first sample of the inputs after it as it stands, forms no reply, and has ended
when no access is in flight. It is dropped while another Restart executes and during the memory clear. The
queue of commands, the counter of the open orders and the bytes shifted out are the model's own. -/
def Obligations.RestartTaken : Prop :=
  (∀ (r : RestartRequest) (s : State), s.inReset = false →
    (s.link.ready = true → s.link.restarting = false →
      exec (.restart r) s = .next { State.reset with
        tracker := { Tracker.reset false false false with
          encA := r.first.encA, encB := r.first.encB, home := r.first.home }
        pins := r.first.catchSense.map (fun level => { state := .up, force := none, sense := level })
        faults := { FaultBlock.reset false with haltAsserted := r.first.haltAsserted }
        store := { TileStore.reset with
          memory := s.store.memory, inFlight := s.store.inFlight.map orphanOf }
        link := { Link.reset with
          ready := true, restarting := s.store.inFlight.isSome, shifted := s.link.shifted }
        freeCount := s.freeCount, pending := s.pending }) ∧
    ((s.link.ready = false ∨ s.link.restarting = true) →
      exec (.restart r) s = .next (droppedFrame s))) ∧
  ∀ (u : PixelWord) (s : State) (w : Nat) (d : BitVec 64), s.inReset = false → w < memorySize →
    (s.store.inFlight = some (.orphanRead w) ∨ s.store.inFlight = some (.orphanWrite w d)) →
    ∃ m, exec (.storeAccessComplete u) s = .next { s with
      store := { s.store with memory := m, inFlight := none }
      link := { s.link with restarting := false } }

/-! ### The link -/

/-- R191: while a request or a Restart executes, and during the memory clear, a frame is dropped: not
checked, not handed to any block and not answered, the reply slot untouched and LAST_FRAME_DROPPED set.
A well-formed Restart that arrives while another request executes is accepted instead (R180, R188). The bytes
that a write request shifts out meanwhile, and that its status byte and reply slot are sampled as it ends
where no TRANSFER_START came before it, are the model's own record (log 24, DESIGN CHOICE). -/
def Obligations.FramesDropped : Prop :=
  ∀ s : State, s.inReset = false →
    s.link.request.isSome = true ∨ s.link.restarting = true ∨ s.link.ready = false →
    (∀ w : WriteTransfer, w.bytes ≠ [] → (∀ r, readFrame w.first w.bytes ≠ .request (.restart r)) →
      exec (.writeRequest w) s = .next (droppedFrame (writtenOut s w.bytes.length))) ∧
    (∀ c, (requestBody c).isSome = true → (∀ r, c ≠ .restart r) →
      exec c s = .next (droppedFrame s)) ∧
    (∀ w r, readFrame w.first w.bytes = .request (.restart r) →
      exec (.writeRequest w) s = exec (.restart r) (writtenOut s w.bytes.length) ∧
      (s.link.restarting = true ∨ s.link.ready = false →
        exec (.restart r) s = .next (droppedFrame s)) ∧
      (s.link.restarting = false → s.link.ready = true →
        ∃ t, exec (.restart r) s = .next t ∧ t.link.request = none ∧ t.link.reply = none ∧
          t.link.dropped = false ∧ t.link.restarting = s.store.inFlight.isSome))

/-- Sections 10.3 and 10.6: the frame that carries a well-formed request is read as that request, and receiving
it is carrying the request out. A run of bytes with two more gives a CRC register of 0 exactly when the two
are its CRC, high byte first; and nine bytes have their check value. The levels that a Restart finds are no
part of its frame (log 9). The bytes shifted out while the frame is received, which the clause on receiving it
puts beside the request's effect, are the model's own record (log 24, DESIGN CHOICE). -/
def Obligations.FrameRoundTrip : Prop :=
  (∀ (i : Instr) (b : RequestBody) (first : InputLevels), i.wf = true → requestBody i = some b →
    (∀ r, i = .restart r → r.first = first) →
    readFrame first (encodeFrame b) = .request i ∧
    ∀ s : State, s.inReset = false → exec (.writeRequest ⟨encodeFrame b, first⟩) s =
      exec i (writtenOut s (encodeFrame b).length)) ∧
  (∀ (l : List Byte) (hi lo : Byte), crc16 (l ++ [hi, lo]) = 0 ↔ [hi, lo] = crcBytes l) ∧
  crc16 [0x31, 0x32, 0x33, 0x34, 0x35, 0x36, 0x37, 0x38, 0x39] = 0x29B1

/-- R188: the checks of a frame that the link does not drop, in their order, each failure answered at once
with nothing handed to a block; a frame that passes them all carries exactly one request of the
catalogue, which is carried out. The bytes shifted out meanwhile are the model's own record (log 24). -/
def Obligations.FrameChecks : Prop :=
  ∀ (s : State) (first : InputLevels), takesRequests s →
    (∀ bytes : List Byte, bytes.length = 1 ∨ bytes.length = 2 →
      exec (.writeRequest ⟨bytes, first⟩) s =
        .next (refusedWith (writtenOut s bytes.length) 0 .badFrame)) ∧
    ∀ (len code tag : Byte) (rest : List Byte),
      let received := exec (.writeRequest ⟨len :: code :: tag :: rest, first⟩) s
      let s1 := writtenOut s (rest.length + 3)
      ((len.toNat < 4 ∨ 76 < len.toNat ∨ rest.length + 2 ≠ len.toNat ∨
          crc16 (len :: code :: tag :: rest) ≠ 0) →
        received = .next (refusedWith s1 tag .badFrame)) ∧
      (4 ≤ len.toNat → len.toNat ≤ 76 → rest.length + 2 = len.toNat →
        crc16 (len :: code :: tag :: rest) = 0 →
        (¬ knownCode code.toNat → received = .next (refusedWith s1 tag .unknown)) ∧
        (knownCode code.toNat → ¬ lengthAllowed code.toNat (rest.take (len.toNat - 4)) →
          received = .next (refusedWith s1 tag .badLength)) ∧
        (lengthAllowed code.toNat (rest.take (len.toNat - 4)) →
          ∃ i t, i.wf = true ∧ requestBody i = some ⟨code, tag, rest.take (len.toNat - 4)⟩ ∧
            (∀ r, i = .restart r → r.first = first) ∧ exec i s1 = .next t ∧ received = .next t))

/-- Sections 10.1, 10.4 and 9.3: the fall of CS_N samples the status byte and the reply slot. A status-only transfer
repeats the byte, and a transfer of a type from 3 on gives it once and then zeros; a write request without a
byte after its type carries no frame and only ends its transfer; a read-reply transfer shifts out the sampled
reply and then zeros, or zeros from an empty slot, and the reply is completely read once every byte of it has
been shifted out. SDO is driven from the fall of CS_N to its rise. What a transfer shifted out is the model's
own record (log 24). R187, R190, R194: the bytes of a reply are its length byte, the result byte with
PREVIOUS_LOST in bit 7, the tag, the payload and the CRC, high byte first. -/
def Obligations.Transfers : Prop :=
  (∀ s : State, s.inReset = false →
    (∃ t, exec .transferStart s = .next t ∧ sdoDriven t = true ∧ t = { s with
      link := { s.link with transfer := some ⟨statusByte s, s.link.reply.map (·.reply)⟩ } }) ∧
    exec (.statusOnly []) s = .next { s with link := { s.link with transfer := none } } ∧
    ∀ x : Transfer, s.link.transfer = some x →
      let ended := fun shifted : List Byte =>
        { s with link := { s.link with transfer := none, shifted := shifted } }
      (∀ first, exec (.writeRequest ⟨[], first⟩) s = .next (ended [x.status])) ∧
      ∀ rest : List Byte,
        let n := rest.length
        exec (.statusOnly (2 :: rest)) s = .next (ended (List.replicate (n + 1) x.status)) ∧
        (∀ type : Byte, 3 ≤ type.toNat →
          exec (.statusOnly (type :: rest)) s = .next (ended (x.status :: List.replicate n 0))) ∧
        (x.reply = none →
          exec (.readReply n) s = .next (ended (x.status :: List.replicate n 0))) ∧
        (∀ r, x.reply = some r → n < (replyFrame r).length →
          exec (.readReply n) s = .next (ended (x.status :: (replyFrame r).take n))) ∧
        (∀ r, x.reply = some r → (replyFrame r).length ≤ n →
          exec (.readReply n) s = .next { s with link := { s.link with
            transfer := none
            shifted := x.status :: (replyFrame r ++ List.replicate (n - (replyFrame r).length) 0)
            reply := s.link.reply.map (fun q => { q with read := true }) } })) ∧
  (∀ (c : Instr) (s t : State), (∃ w, c = .writeRequest w) ∨ (∃ n, c = .readReply n) ∨
    (∃ l, c = .statusOnly l) → s.inReset = false → exec c s = .next t → sdoDriven t = false) ∧
  ∀ r : Reply, r.payload.length ≤ 72 →
    let b := fun n => (replyFrame r).getD n 0
    let n := r.payload.length
    (replyFrame r).length = n + 5 ∧ (b 0).toNat = n + 4 ∧
    (b 1).extractLsb' 0 7 = (match r.code with
      | .ok => 0 | .badFrame => 1 | .unknown => 2 | .badLength => 3 | .range => 4 | .state => 5
      | .noRecord => 6 | .inUse => 7 | .overlap => 8 | .full => 9 | .busy => 10 | .direction => 11
      | .order => 12 | .parity => 13) ∧
    (b 1).getLsbD 7 = r.previousLost ∧ b 2 = r.tag ∧ ((replyFrame r).drop 3).take n = r.payload ∧
    let crc := crc16 ((replyFrame r).take (n + 3))
    b (n + 3) = crc.extractLsb' 8 8 ∧ b (n + 4) = crc.extractLsb' 0 8

/-- R167, R178: ATTN is asserted exactly while an enabled record is present or an enabled event bit is set. In
reset it is released. R186, section 10.7: the status byte shows READY, REPLY_READY, REQUEST_PENDING, ATTN and
LAST_FRAME_DROPPED in bits 0 to 4, and 0 above. -/
def Obligations.AttentionFollows : Prop :=
  ∀ s : State, (s.inReset = true → attnLine s = false) ∧ (s.inReset = false →
    (attnLine s = true ↔
      (∃ kind : FaultKind, (s.faults.records[kind.number]).isSome = true ∧
        s.faults.policy.faultAttention[kind.number] = true) ∨
      (s.faults.courseDone = true ∧ s.faults.policy.eventAttention[0] = true) ∨
      (s.faults.markDone = true ∧ s.faults.policy.eventAttention[1] = true) ∨
      (s.faults.loadEmpty = true ∧ s.faults.policy.eventAttention[2] = true)) ∧
    ((statusByte s).getLsbD 0 = s.link.ready ∧ (statusByte s).getLsbD 1 = s.link.replyReady ∧
      (statusByte s).getLsbD 2 = (s.link.request.isSome || s.link.restarting) ∧
      (statusByte s).getLsbD 3 = attnLine s ∧ (statusByte s).getLsbD 4 = s.link.dropped ∧
      (statusByte s).extractLsb' 5 3 = 0#3))

/-! ### Faults, policy and attention -/

/-- R168, R200: Read Status gathers the part as it stands when the request is taken; with the clear flag the event
bits are cleared once the reply is formed; a reserved bit is refused and clears nothing. The reply has 64
bytes: run state, lines, events, records, policy, marks and tracker, then the channels and the pins. -/
def Obligations.ReadStatusTaken : Prop :=
  (∀ (tag flags : Byte) (s : State), takesRequests s →
    (flags.toNat = 0 → exec (.readStatus tag flags) s =
      .next (answeredWith s s tag (statusReplyBytes s))) ∧
    (flags.toNat = 1 → exec (.readStatus tag flags) s =
      .next (answeredWith s { s with faults := { s.faults with
        courseDone := false, markDone := false, loadEmpty := false } } tag (statusReplyBytes s))) ∧
    (1 < flags.toNat → exec (.readStatus tag flags) s = .next (refusedWith s tag .range)) ∧
    (statusReplyBytes s).length = 64) ∧
  ∀ s : State, s.inReset = false → s.tracker.phase < 8 →
    let b := fun i => (statusReplyBytes s).getD i 0
    ((b 0).extractLsb' 0 3).toNat = s.engine.runState.number ∧
    (b 0).getLsbD 3 = stopReq s ∧ (b 0).getLsbD 4 = s.faults.haltAsserted ∧
    (b 0).getLsbD 5 = attnLine s ∧ (b 0).extractLsb' 6 2 = 0 ∧
    (b 1).getLsbD 0 = s.faults.courseDone ∧ (b 1).getLsbD 1 = s.faults.markDone ∧
    (b 1).getLsbD 2 = s.faults.loadEmpty ∧
    (∀ i : Fin 11, (halfOfBytes (b 2) (b 3)).getLsbD i.val = s.faults.records[i].isSome ∧
      (halfOfBytes (b 4) (b 5)).getLsbD i.val = (s.faults.records[i].map (·.stopped)).getD false ∧
      (halfOfBytes (b 7) (b 8)).getLsbD i.val = s.faults.policy.faultAttention[i]) ∧
    (∀ i : Fin 6, (b 6).getLsbD i.val = s.faults.policy.stopEnable[i]) ∧
    (∀ i : Fin 3, (b 9).getLsbD i.val = s.faults.policy.eventAttention[i]) ∧
    b 10 = (if s.zones.pendingMark.isSome then 1 else 0) ∧ b 11 = s.zones.pendingMark.getD 0 ∧
    b 12 = s.zones.lastMark ∧
    halfOfBytes (b 13) (b 14) = BitVec.ofInt 16 s.tracker.position ∧
    ((b 15).extractLsb' 0 3).toNat = s.tracker.phase ∧ (b 15).getLsbD 3 = s.tracker.referenced ∧
    ((b 15).extractLsb' 4 2).toNat = expectedNumber s.tracker.lastStep ∧
    (b 15).getLsbD 6 = s.tracker.slow ∧ (b 15).getLsbD 7 = s.tracker.correction.isSome ∧
    halfOfBytes (b 16) (b 17) = BitVec.ofInt 16 (s.tracker.correction.getD 0) ∧
    halfOfBytes (b 18) (b 19) = BitVec.ofNat 16 s.tracker.interval ∧
    (∀ (bed : Bed) (sys : Fin 4), sys.val < s.geometry.systems →
      let o := 20 + (match bed with | .front => 0 | .back => 16) + 4 * sys.val
      let ch := s.channel bed sys
      ((b o).extractLsb' 0 3).toNat = ch.preparer.number ∧
      ((b o).extractLsb' 3 2).toNat = ch.coil.number ∧
      ((b o).extractLsb' 5 2).toNat = coilForceNumber ch.force ∧
      b (o + 1) = BitVec.ofNat 8 ch.queue.length ∧
      halfOfBytes (b (o + 2)) (b (o + 3)) = match ch.next with
        | .none => 0xFFFF
        | .past => 0xFFFE
        | .at n => BitVec.ofNat 16 n) ∧
    (∀ (bed : Bed) (sys : Fin 4), s.geometry.systems ≤ sys.val →
      let o := 20 + (match bed with | .front => 0 | .back => 16) + 4 * sys.val
      b o = 0 ∧ b (o + 1) = 0 ∧ b (o + 2) = 0xFF ∧ b (o + 3) = 0xFF) ∧
    (∀ sys : Fin 4,
      let o := 52 + 3 * sys.val
      let p := s.pins[sys]
      (b o).getLsbD 2 = p.sense ∧ ((b o).extractLsb' 3 2).toNat = pinForceNumber p.force ∧
      match p.state with
      | .up => (b o).extractLsb' 0 2 = 0 ∧ b (o + 1) = 0 ∧ b (o + 2) = 0
      | .catching c left _ _ => (b o).extractLsb' 0 2 = 1 ∧ b (o + 1) = BitVec.ofNat 8 c.val ∧
          b (o + 2) = BitVec.ofNat 8 left
      | .holding c _ _ => (b o).extractLsb' 0 2 = 2 ∧ b (o + 1) = BitVec.ofNat 8 c.val ∧
          b (o + 2) = 0)

/-- R29, R58, R96, R141, R169: the reads answer with the record as it stands and change nothing; an id out of
range is refused with RANGE, and an empty tile or zone place with NO_RECORD. The bytes of the five payloads
stand in ReadReplyLayouts. -/
def Obligations.ReadsReport : Prop :=
  ∀ (tag id : Byte) (s : State), takesRequests s →
    exec (.readCourse tag) s = .next (answeredWith s s tag (courseBytes s.engine)) ∧
    (∀ i : Fin 11, id.toNat = i.val → exec (.readFault tag id) s =
      .next (answeredWith s s tag (recordBytes s.faults.records[i]))) ∧
    (11 ≤ id.toNat → exec (.readFault tag id) s = .next (refusedWith s tag .range)) ∧
    (∀ i : Fin 64, id.toNat = i.val →
      (∀ t, s.store.tiles[i] = some t →
        exec (.readTile tag id) s = .next (answeredWith s s tag (tileBytes s i t))) ∧
      (s.store.tiles[i] = none →
        exec (.readTile tag id) s = .next (refusedWith s tag .noRecord))) ∧
    (64 ≤ id.toNat → exec (.readTile tag id) s = .next (refusedWith s tag .range)) ∧
    (∀ i : Fin 32, id.toNat = i.val →
      (∀ z, s.zones.places[i] = some z →
        exec (.readZone tag id) s = .next (answeredWith s s tag (zoneBytes z))) ∧
      (s.zones.places[i] = none →
        exec (.readZone tag id) s = .next (refusedWith s tag .noRecord))) ∧
    (32 ≤ id.toNat → exec (.readZone tag id) s = .next (refusedWith s tag .range)) ∧
    (∀ i : Fin 16, id.toNat = i.val →
      exec (.readCarrier tag id) s = .next (answeredWith s s tag (carrierBytes s i))) ∧
    (16 ≤ id.toNat → exec (.readCarrier tag id) s = .next (refusedWith s tag .range))

/-- R29, R43, R58, R96, R141, R161, R169, R195, R198: the bytes of the payloads of Read Tile, Read Zone, Read
Carrier, Read Course and Read Fault, every field in the order of its rule, two bytes low byte first, and an
optional field after its flag. The sizes of the fields that R195 gives none, and the bytes that stand for an
absent group, are the model's reading (log 17, 18), and so is a next word of 65536 (log 36). A pending part
is sent as the mask and the fields of an Edit Zone that gives the same (R195). -/
def Obligations.ReadReplyLayouts : Prop :=
  (∀ (s : State) (i : Fin 64) (t : Tile),
    let b := fun n => (tileBytes s i t).getD n 0
    (tileBytes s i t).length = 15 ∧ halfAt b 0 = BitVec.ofNat 16 t.width ∧
    halfAt b 2 = BitVec.ofNat 16 t.height ∧ halfAt b 4 = BitVec.ofNat 16 t.base ∧
    b 6 = BitVec.ofNat 8 (pitchOf t.width) ∧
    halfAt b 7 = BitVec.ofNat 16 (t.base + t.height * pitchOf t.width - 1) ∧
    b 9 = BitVec.ofNat 8 t.references ∧
    (∀ c, s.store.cursor = some c → c.tile = i → b 10 = 1 ∧ b 11 = 1 ∧
      halfAt b 12 = BitVec.ofNat 16 c.next ∧ b 14 = BitVec.ofNat 8 s.store.buffer.length) ∧
    ((∀ c, s.store.cursor = some c → c.tile ≠ i) → ∀ n, 10 ≤ n → b n = 0)) ∧
  (∀ (z : Zone) (p : PendingFields), z.pendingPart = p → pendingFits p →
    let b := fun n => (zoneBytes z).getD n 0
    b 0 = (match z with | .pending _ => 0 | .live _ _ => 1 | .retiring _ _ => 2) ∧
    (z.current? = none → ∀ n, 1 ≤ n → n < 38 → b n = 0) ∧
    (∀ c, z.current? = some c →
      halfAt b 1 = BitVec.ofNat 16 c.given.left ∧ halfAt b 3 = BitVec.ofNat 16 c.given.right ∧
      b 5 = BitVec.ofNat 8 c.given.tile.val ∧ halfAt b 6 = BitVec.ofInt 16 c.given.anchor ∧
      halfAt b 8 = BitVec.ofNat 16 c.effective ∧ halfAt b 10 = BitVec.ofInt 16 c.given.shift ∧
      b 12 = (if c.given.mirror then 1 else 0) ∧ halfAt b 13 = BitVec.ofNat 16 c.given.row ∧
      b 15 = BitVec.ofNat 8 c.repeatIndex ∧ b 16 = BitVec.ofNat 8 c.given.repeats ∧
      b 17 = BitVec.ofNat 8 c.given.colours ∧
      (∀ v : Fin 16, mapEntryMatches (b (18 + v.val)) c.given.map[v] ∧ (b (18 + v.val)).toNat < 16) ∧
      (b 34).toNat = c.given.backing.number ∧ b 35 = BitVec.ofNat 8 c.given.floatLimit ∧
      b 36 = c.backingCounter ∧ b 37 = c.served) ∧
    ∃ e, decodeEdit ((zoneBytes z).drop 38) = some e ∧ e.reserved = 0 ∧ editMatches e p) ∧
  (∀ (s : State) (c : Fin 16),
    let b := fun n => (carrierBytes s c).getD n 0
    (carrierBytes s c).length = 12 ∧ b 0 = BitVec.ofNat 8 c.val ∧ b 1 = BitVec.ofNat 8 (c.val / 2) ∧
    b 10 = s.carriers[c].yarn ∧
    ((b 11).toNat = (plansNamed s c) % 256) ∧
    match s.carriers[c].state with
    | .absent => b 2 = 0 ∧ ∀ n, 3 ≤ n → n < 10 → b n = 0
    | .resting x => b 2 = 1 ∧ b 3 = 1 ∧ halfAt b 4 = BitVec.ofInt 16 x ∧
        ∀ n, 6 ≤ n → n < 10 → b n = 0
    | .carried pin i => b 2 = 2 ∧ b 6 = 1 ∧ b 7 = BitVec.ofNat 8 pin.val ∧
        b 8 = BitVec.ofNat 8 i ∧ ∀ k, s.engine.course = some k → b 9 = k.tag ∧ b 3 = 1 ∧
          halfAt b 4 = BitVec.ofInt 16
            (s.tracker.position + s.geometry.pinOffsetOf pin k.direction)
    | .lost => b 2 = 3 ∧ ∀ n, 3 ≤ n → n < 10 → b n = 0) ∧
  (∀ e : Engine,
    let b := fun n => (courseBytes e).getD n 0
    let n := (e.course.map (·.runs.length)).getD 0
    b 0 = BitVec.ofNat 8 (match e.runState with
      | .setup => 0 | .ready => 1 | .prepared => 2 | .knitting => 3 | .held => 4) ∧
    halfAt b 1 = e.courseNumber ∧ b 3 = (match e.expected with
      | none => 0 | some .right => 1 | some .left => 2) ∧
    (e.course = none → ∀ m, 4 ≤ m → m < 12 → b m = 0) ∧
    (∀ k, e.course = some k → b 4 = 1 ∧ b 5 = k.tag ∧
      b 6 = (match k.direction with | .right => 0 | .left => 1) ∧ b 7 = BitVec.ofInt 8 k.racking ∧
      halfAt b 8 = BitVec.ofInt 16 k.endPosition ∧ b 10 = BitVec.ofNat 8 n ∧
      b 11 = (if e.runState = .knitting then 1 else 0) ∧
      ∀ (i : Nat) (r : EntryRun), k.runs[i]? = some r → b (12 + i) =
        if e.runState = .knitting then (match r.status with
          | some .fed => 1 | some .done => 2 | some .unfed => 3 | _ => 0) else 0) ∧
    b (12 + n) = BitVec.ofNat 8 e.queue.length ∧
    ∀ (i : Nat) (p : Plan), e.queue[i]? = some p → b (13 + n + 2 * i) = p.tag ∧
      b (14 + n + 2 * i) = (match p.direction with | .right => 0 | .left => 1)) ∧
  ∀ r : Option FaultRecord,
    let b := fun n => (recordBytes r).getD n 0
    (recordBytes r).length = 18 ∧
    match r with
    | none => ∀ n, b n = 0
    | some r =>
      let c := r.context
      b 0 = 1 ∧ b 1 = (if r.stopped then 1 else 0) ∧ b 2 = BitVec.ofNat 8 r.count ∧ b 3 = 1 ∧
      halfAt b 4 = c.courseNumber ∧ halfAt b 6 = BitVec.ofInt 16 c.position ∧
      (match c.system with
        | some sys => b 8 = 1 ∧ b 9 = BitVec.ofNat 8 sys.val
        | none => b 8 = 0 ∧ b 9 = 0) ∧
      (match c.bed with
        | some bed => b 10 = 1 ∧ b 11 = (match bed with | .front => 0 | .back => 1)
        | none => b 10 = 0 ∧ b 11 = 0) ∧
      (match c.needle with
        | some n => b 12 = 1 ∧ halfAt b 13 = BitVec.ofNat 16 n
        | none => b 12 = 0 ∧ halfAt b 13 = 0) ∧
      (match c.planTag with
        | some tag => b 15 = 1 ∧ b 16 = tag
        | none => b 15 = 0 ∧ b 16 = 0) ∧
      b 17 = BitVec.ofNat 8 c.detail

/-- R164, R170: Clear Fault makes the record of a kind, or every record, absent, and answers with the number of
records that were present; another number is refused with RANGE. Set Policy replaces the whole policy with the
twenty flags it carries, in every run state; a flag byte other than 0 or 1 is refused with RANGE and leaves
the policy. Neither changes anything else, and ATTN follows at once. -/
def Obligations.FaultRequestsTaken : Prop :=
  (∀ (tag kind : Byte) (s : State), takesRequests s →
    (kind.toNat = 255 → exec (.clearFault tag kind) s =
      .next (answeredWith s { s with faults := { s.faults with records := Vector.replicate 11 none } }
        tag [BitVec.ofNat 8 ((List.finRange 11).countP (fun i => s.faults.records[i].isSome))])) ∧
    (∀ i : Fin 11, kind.toNat = i.val → exec (.clearFault tag kind) s =
      .next (answeredWith s { s with faults := { s.faults with
        records := s.faults.records.set i none } }
        tag [if s.faults.records[i].isSome then 1 else 0])) ∧
    (11 ≤ kind.toNat → kind.toNat ≠ 255 →
      exec (.clearFault tag kind) s = .next (refusedWith s tag .range))) ∧
  ∀ (tag : Byte) (flags : Vector Byte 20) (s : State), takesRequests s →
    ((∃ i : Fin 20, 1 < flags[i].toNat) →
      exec (.setPolicy tag flags) s = .next (refusedWith s tag .range)) ∧
    ((∀ i : Fin 20, flags[i].toNat ≤ 1) → ∃ p : Policy,
      exec (.setPolicy tag flags) s =
        .next (answeredWith s { s with faults := { s.faults with policy := p } } tag []) ∧
      (∀ i : Fin 6, p.stopEnable[i] = decide (flags[i.val] = 1)) ∧
      (∀ i : Fin 11, p.faultAttention[i] = decide (flags[6 + i.val] = 1)) ∧
      (∀ i : Fin 3, p.eventAttention[i] = decide (flags[17 + i.val] = 1)))

/-- R165: an assertion of HALT_N is one occurrence of HALT_INPUT, always stopping, taken with c and with the
tag of the prepared or active plan; a release changes the kept level alone. An assertion of a line that
stands asserted is none (log 10). -/
def Obligations.HaltInputTaken : Prop :=
  ∀ s : State, s.inReset = false →
    (s.faults.haltAsserted = false → ∃ t, exec .haltAssertion s = .next t ∧
      occurrenceTaken { s with faults := { s.faults with haltAsserted := true } } t .haltInput
        { courseNumber := s.engine.courseNumber, position := s.tracker.position, system := none
          bed := none, needle := none, planTag := s.engine.standingTag, detail := 0 }) ∧
    (s.faults.haltAsserted = true → exec .haltAssertion s = .next s) ∧
    exec .haltRelease s = .next { s with faults := { s.faults with haltAsserted := false } }

/-- R160, R162, R163: of the occurrences of one event every one is recorded, whatever their order: a record
counts all of its kind up to 255, and its stopped flag is set when they stop outside SETUP; there is one
course abort, when one of them stops in READY, PREPARED or KNITTING. The two kinds that a course abort
reports itself are counted at least. -/
def Obligations.OccurrencesRecorded : Prop :=
  ∀ (s : State) (reports : List Report) (kind : FaultKind),
    let t := takeReports s reports
    let n := (reports.filter (fun r => decide (r.kind = kind))).length
    (kind ≠ .carrierLost → kind ≠ .encoder → n = 0 →
      t.faults.records[kind.number] = s.faults.records[kind.number]) ∧
    (0 < n → ∃ r, t.faults.records[kind.number] = some r ∧
      (kind ≠ .carrierLost → kind ≠ .encoder →
        r.count = min (((s.faults.records[kind.number].map (·.count)).getD 0) + n) 255) ∧
      min n 255 ≤ r.count ∧
      r.stopped = (((s.faults.records[kind.number].map (·.stopped)).getD false) ||
        (s.faults.policy.stops kind && s.engine.runState.running))) ∧
    (s.faults.records[kind.number].isSome = true →
      (t.faults.records[kind.number]).map (·.context) =
        (s.faults.records[kind.number]).map (·.context)) ∧
    ((∃ r, r ∈ reports ∧ causesAbort s r.kind) →
      t.engine = { s.engine with runState := .held, course := none, queue := [] }) ∧
    ((∀ r, r ∈ reports → ¬ causesAbort s r.kind) → t.engine = s.engine)

/-! ### The run state and its requests -/

/-- R70, R71, R72, R74: Begin Run, End Run, Resume and Drop Plans, each in the run states that take it, with the
halt input and the stopped records that refuse it. Begin Run clears every force; End Run releases SLOW on the
entry to SETUP (section 5.4); Drop Plans in PREPARED has the channels give up the plan and applies the pending
parts without advance. Nothing else changes but the reference counts of the tiles (TileLaw). -/
def Obligations.RunRequestsTaken : Prop :=
  (∀ (tag : Byte) (s : State), takesRequests s →
    (s.engine.runState = .setup → s.faults.haltAsserted = false → exec (.beginRun tag) s =
      .next (answeredWith s { s with
        engine := { s.engine with runState := .ready, expected := none }
        front := s.front.map (fun ch => { ch with force := none, coil := .off })
        back := s.back.map (fun ch => { ch with force := none, coil := .off })
        pins := s.pins.map (fun p => { p with force := none }) } tag [])) ∧
    (s.engine.runState ≠ .setup ∨ s.faults.haltAsserted = true →
      exec (.beginRun tag) s = .next (refusedWith s tag .state)) ∧
    (s.engine.runState = .ready ∨ s.engine.runState = .held → exec (.endRun tag) s =
      .next (answeredWith s { s with
        engine := { s.engine with runState := .setup }
        tracker := { s.tracker with slow := false, overspeedReported := false } } tag [])) ∧
    (s.engine.runState ≠ .ready → s.engine.runState ≠ .held →
      exec (.endRun tag) s = .next (refusedWith s tag .state)) ∧
    (s.engine.runState = .held → s.faults.haltAsserted = false →
      (∀ (i : Fin 11) (r : FaultRecord), s.faults.records[i] = some r → r.stopped = false) →
      exec (.resume tag) s = .next (answeredWith s { s with
        engine := { s.engine with runState := .ready, expected := none } } tag [])) ∧
    ((s.engine.runState ≠ .held ∨ s.faults.haltAsserted = true ∨
        ∃ (i : Fin 11) (r : FaultRecord), s.faults.records[i] = some r ∧ r.stopped = true) →
      exec (.resume tag) s = .next (refusedWith s tag .state))) ∧
  ∀ (tag : Byte) (s : State), takesRequests s →
    (s.engine.runState = .setup ∨ s.engine.runState = .held →
      exec (.dropPlans tag) s = .next (refusedWith s tag .state)) ∧
    (s.engine.runState = .ready → exec (.dropPlans tag) s = .next (answeredWith s s tag [0])) ∧
    (s.engine.runState = .knitting → exec (.dropPlans tag) s =
      .next (answeredWith s { s with engine := { s.engine with queue := [] } } tag
        [BitVec.ofNat 8 s.engine.queue.length])) ∧
    (s.engine.runState = .prepared → ∃ t, exec (.dropPlans tag) s = .next t ∧
      t.engine = { s.engine with runState := .ready, course := none, queue := [] } ∧
      allGaveUp s t ∧ partsApplied s t ∧ storeKept s t ∧ t.pins = s.pins ∧
      t.carriers = s.carriers ∧ t.tracker = s.tracker ∧ t.geometry = s.geometry ∧
      t.faults = { s.faults with markDone := t.faults.markDone } ∧ t.inReset = s.inReset ∧
      t.freeCount = s.freeCount ∧ t.pending = s.pending ∧ stopReq t = false ∧
      t.link = answeredLink s.link tag .ok [BitVec.ofNat 8 (s.engine.queue.length + 1)])

/-- R73, R76, R77, R64, R107, R132, R155: Abort Course in READY, PREPARED and KNITTING: no plan is left, the
run state is HELD, the channels give up the plan, the pins rise, the pending parts and the correction are
applied, the course number and the expected direction are kept, and no occurrence is reported but those of
the abort itself. A pin that holds a carrier sets it down at its position before the correction, LOST
where that conflicts with the rail partner or lies outside the rest range. -/
def Obligations.AbortCourseTaken : Prop :=
  ∀ (tag : Byte) (s : State), takesRequests s →
    (s.engine.runState.abortable = false →
      exec (.abortCourse tag) s = .next (refusedWith s tag .state)) ∧
    (s.engine.runState.abortable = true → ∃ t, exec (.abortCourse tag) s = .next t ∧
      abortedFrom s t ∧ recordsKept s t [.carrierLost, .encoder] ∧ stopReq t = true ∧
      t.link = answeredLink s.link tag .ok [] ∧
      (∀ c : Fin 16, (∀ (pin : Fin 4) (i : Nat) (d : Direction),
          s.pins[pin].state ≠ .holding c i d) → t.carriers[c] = s.carriers[c]) ∧
      (∀ (pin : Fin 4) (c : Fin 16) (i : Nat) (d : Direction),
        s.pins[pin].state = .holding c i d →
        (∀ (other : Fin 4) (c' : Fin 16) (i' : Nat) (d' : Direction), other ≠ pin →
          s.pins[other].state = .holding c' i' d' → c' ≠ c ∧ c' ≠ partnerOf c) →
        let x := s.tracker.position + s.geometry.pinOffsetOf pin d
        let conflict := (∃ y, s.carriers[partnerOf c].state = .resting y ∧
          (x - y).natAbs < s.geometry.clearance) ∨ x < -256 ∨ s.geometry.bedWidth + 255 < x
        (conflict → t.carriers[c] = { s.carriers[c] with state := .lost }) ∧
        (¬ conflict → t.carriers[c] = { s.carriers[c] with state := .resting x })))

/-! ### Plans -/

/-- R80, R81, R82, R199: the checks of Queue Course in their order, each failure leaving the queue and the run
state, and the plan that PREPARED and KNITTING add at the tail of the queue, its position given in the
reply. The number of systems is at most 4 in every geometry (R175). -/
def Obligations.QueueCourseChecks : Prop :=
  ∀ (tag : Byte) (p : PlanPayload) (s : State), takesRequests s → s.geometry.systems ≤ 4 →
    (s.engine.runState = .setup ∨ s.engine.runState = .held →
      exec (.queueCourse tag p) s = .next (refusedWith s tag .state)) ∧
    (s.engine.runState ≠ .setup → s.engine.runState ≠ .held →
      (4 ≤ s.engine.queue.length →
        exec (.queueCourse tag p) s = .next (refusedWith s tag .full)) ∧
      (s.engine.queue.length < 4 →
        (¬ planInRange s.geometry p →
          exec (.queueCourse tag p) s = .next (refusedWith s tag .range)) ∧
        (planInRange s.geometry p → ∃ q, planMatches p q ∧
          (¬ directionFits s.engine q.direction →
            exec (.queueCourse tag p) s = .next (refusedWith s tag .direction)) ∧
          (directionFits s.engine q.direction →
            (¬ recordsFit s q → exec (.queueCourse tag p) s = .next (refusedWith s tag .noRecord)) ∧
            (recordsFit s q →
              (¬ ordersFit q → exec (.queueCourse tag p) s = .next (refusedWith s tag .order)) ∧
              (ordersFit q →
                (s.engine.runState = .prepared ∨ s.engine.runState = .knitting →
                  exec (.queueCourse tag p) s = .next (answeredWith s { s with
                    engine := { s.engine with queue := s.engine.queue ++ [q] } } tag
                    [0, BitVec.ofNat 8 (s.engine.queue.length + 1)])) ∧
                (s.engine.runState = .ready → ∃ t, exec (.queueCourse tag p) s = .next t ∧
                  (t.engine.runState = .prepared ∨ t.engine.runState = .held))))))))

/-- R82, R87, R88, R115, R116, R144: a plan accepted in READY is prepared at once. When every check passes it
becomes the prepared plan, with the engage point, the release point and the ordinal of each entry, and each
system with entries takes its two spans: its front preparer asks for the word of its first needle, and its
back preparer decides at once until it is FULL or FINISHED. When a check fails the plan is dropped,
PLAN_INVALID is recorded with its context, and the part enters HELD. The reply gives the outcome. The clause
on the channels is about parts whose left needle is not right of the right one, which ZoneLaw keeps. -/
def Obligations.QueueCoursePrepares : Prop :=
  ∀ (tag : Byte) (p : PlanPayload) (q : Plan) (s : State), takesRequests s →
    s.geometry.systems ≤ 4 → s.engine.runState = .ready → s.engine.queue.length < 4 →
    planInRange s.geometry p → planMatches p q → directionFits s.engine q.direction →
    recordsFit s q → ordersFit q →
    (preparationCheck s q = none → ∃ t runs, exec (.queueCourse tag p) s = .next t ∧
      t.link = answeredLink s.link tag .ok [1, 0] ∧
      t.engine = { s.engine with
        runState := .prepared
        course := some { tag := q.tag, direction := q.direction, racking := q.racking,
                         endPosition := q.endPosition, runs := runs } } ∧
      runs.length = q.entries.length ∧
      (∀ (i : Nat) (e : Entry) (r : EntryRun), q.entries[i]? = some e → runs[i]? = some r →
        ∃ x c, s.carriers[e.carrier].state = .resting x ∧ s.part? e.zone = some c ∧
          r.fixed = { entry := e, rest := x, engage := engageFrom s.geometry q.direction x
                      release := releaseBeyond s.geometry q.direction c
                      ordinal := (q.entries.filter (fun f =>
                        decide (f.zone = e.zone) && decide (f.system < e.system))).length
                      floatCount := 0, status := none }) ∧
      (partLaw s → ∀ sys : Fin 4, s.front[sys].span = none → s.front[sys].preparer = .idle →
        s.front[sys].pendingRead = none → s.front[sys].fetch = none → s.front[sys].queue = [] →
        s.back[sys].span = none → s.back[sys].preparer = .idle → s.back[sys].queue = [] →
        (q.entries.filter (fun e => decide (e.system = sys)) = [] →
          t.front[sys] = s.front[sys] ∧ t.back[sys] = s.back[sys]) ∧
        (∀ e f ce cf, (q.entries.filter (fun e => decide (e.system = sys))).head? = some e →
          (q.entries.filter (fun e => decide (e.system = sys))).getLast? = some f →
          s.part? e.zone = some ce → s.part? f.zone = some cf →
          let sp : Span := match q.direction with
            | .right => ⟨ce.given.left, cf.given.right⟩
            | .left => ⟨ce.given.right, cf.given.left⟩
          t.front[sys].span = some sp ∧ t.front[sys].next = .at sp.first ∧ t.front[sys].queue = [] ∧
          (∀ u, s.store.tiles[ce.given.tile] = some u →
            t.front[sys].pendingRead = some (ce.wordOf u sp.first) ∨
            t.front[sys].fetch = some ⟨ce.wordOf u sp.first, sp.first⟩) ∧
          backSpanUnder q.direction s.geometry.bedWidth q.racking sp t.back[sys].span ∧
          ∀ b, t.back[sys].span = some b →
            (t.back[sys].preparer = .full ∨ t.back[sys].preparer = .finished) ∧
            ∀ (i : Nat) (d : Queued), t.back[sys].queue[i]? = some d →
              (d.needle : Int) = ahead q.direction b.first i ∧
              (d.origin = .gap ∨ d.origin = .backing))) ∧
      t.zones = s.zones ∧ t.carriers = s.carriers ∧ t.pins = s.pins ∧ t.tracker = s.tracker ∧
      t.faults = s.faults) ∧
    (∀ r, preparationCheck s q = some r → ∃ t, exec (.queueCourse tag p) s = .next t ∧
      t.link = answeredLink s.link tag .ok [2, BitVec.ofNat 8 r.reason.code] ∧
      abortedFrom s t ∧ recordsKept s t [.planInvalid, .carrierLost, .encoder] ∧
      raisedFrom s t .planInvalid
        { courseNumber := s.engine.courseNumber, position := s.tracker.position, system := r.system
          bed := none, needle := none, planTag := some q.tag, detail := r.reason.code } true)

/-- R83 to R86: a plan passes preparation exactly when each of the ten checks passes; when it fails, the reason is
that of the first check that fails in the order of the table, given with a system for a check made on an
entry and with none for END_SHORT. -/
def Obligations.PreparationPasses : Prop :=
  ∀ (s : State) (p : Plan),
    (preparationCheck s p = none ↔ ∀ reason, checkPasses s p reason) ∧
    ∀ r, preparationCheck s p = some r →
      ¬ checkPasses s p r.reason ∧
      (∀ reason, reason.code < r.reason.code → checkPasses s p reason) ∧
      (r.reason = .endShort → r.system = none) ∧
      (r.reason ≠ .endShort → ∃ e ∈ p.entries, r.system = some e.system)

/-! ### The carriage -/

/-- R98, R100, R108, R109: a sample with one line changed is a count, RIGHT when the pair of levels moves one place
on in the cycle and LEFT when it moves one back. A count within the pitch moves the phase by one and makes no
step; the time that has passed may let the clear time expire. The expiry on its own releases SLOW and lets a
later pass have been reported afresh; with SLOW released, and in SETUP, there is nothing to expire. -/
def Obligations.CountWithinPitch : Prop :=
  ∀ (line : EncoderLine) (home : Bool) (micros : Nat) (s : State), s.inReset = false →
    (let t := trackerAtCount s line home micros
     (countAt s line = .right ↔
       cyclePlace t.encA t.encB = (cyclePlace s.tracker.encA s.tracker.encB + 1) % 4) ∧
     (countAt s line = .left ↔
       (cyclePlace t.encA t.encB + 1) % 4 = cyclePlace s.tracker.encA s.tracker.encB)) ∧
    (¬ completesPitch s.geometry (countAt s line) s.tracker.phase →
      exec (.encoderCount line home micros) s =
        .next { s with tracker := trackerAtCount s line home micros }) ∧
    (s.engine.runState ≠ .setup → s.tracker.slow = true → ∃ n, s.tracker.sinceStep ≤ n ∧
      s.geometry.clearLimit < n ∧ exec .clearTimeExpiry s = .next { s with tracker := { s.tracker with
        slow := false, overspeedReported := false, sinceStep := n } }) ∧
    (s.engine.runState = .setup ∨ s.tracker.slow = false → exec .clearTimeExpiry s = .next s)

/-- R69, R89, R94, R100: outside KNITTING a step that activates no plan moves the tracker alone, but for READY: there
a step in the expected direction is a PLAN_STARVED that stops, its context carrying the position after the step
and no plan tag. -/
def Obligations.StepOutsideACourse : Prop :=
  ∀ (line : EncoderLine) (home : Bool) (micros : Nat) (s : State), s.inReset = false →
    makesStepNow s line →
    ((s.engine.runState = .setup ∨ s.engine.runState = .held ∨
        (s.engine.runState = .ready ∧ s.engine.expected ≠ some (countAt s line)) ∨
        (s.engine.runState = .prepared ∧
          ∀ k, s.engine.course = some k → k.direction ≠ countAt s line)) →
      exec (.encoderCount line home micros) s =
        .next { s with tracker := trackerAtStep s line home micros }) ∧
    (s.engine.runState = .ready → s.engine.expected = some (countAt s line) →
      ∃ t, exec (.encoderCount line home micros) s = .next t ∧ t.engine.runState = .held ∧
        occurrenceTaken { s with tracker := trackerAtStep s line home micros } t .planStarved
          { courseNumber := s.engine.courseNumber
            position := (trackerAtStep s line home micros).position, system := none
            bed := none, needle := none, planTag := none, detail := 0 })

/-- R99, R101: an illegal transition takes no count, and a step at the limit of the position range is not taken
though the phase moves. Each withdraws the reference, discards a pending correction and is one ENCODER
occurrence, with detail 1 or 2. -/
def Obligations.EncoderFaults : Prop :=
  ∀ s : State, s.inReset = false →
    (∀ home : Bool, ∃ t, exec (.illegalTransition home) s = .next t ∧
      occurrenceTaken { s with tracker := { s.tracker with
          encA := !s.tracker.encA, encB := !s.tracker.encB, home := home
          referenced := false, correction := none } } t .encoder
        { courseNumber := s.engine.courseNumber, position := s.tracker.position, system := none
          bed := none, needle := none, planTag := s.engine.standingTag, detail := 1 }) ∧
    (∀ (line : EncoderLine) (home : Bool) (micros : Nat),
      completesPitch s.geometry (countAt s line) s.tracker.phase →
      s.tracker.position = limitOf s.geometry (countAt s line) →
      ∃ t, exec (.encoderCount line home micros) s = .next t ∧
        occurrenceTaken { s with tracker := { trackerAtCount s line home micros with
          referenced := false, correction := none } } t .encoder
          { courseNumber := s.engine.courseNumber, position := s.tracker.position, system := none
            bed := none, needle := none, planTag := s.engine.standingTag, detail := 2 })

/-- R89, R90: in PREPARED a step in the plan's direction activates it. With the position referenced, each
system's pin and points behind the places they first act on and the end position ahead, the run state is
KNITTING and every entry OPEN; else it is a PLAN_INVALID with the reason and, for a late start, the first
system that failed. The zones of a prepared plan have current parts (section 4.3). -/
def Obligations.ActivatingStep : Prop :=
  ∀ (line : EncoderLine) (home : Bool) (micros : Nat) (s : State) (k : Course), s.inReset = false →
    makesStepNow s line → s.engine.runState = .prepared → s.engine.course = some k →
    k.direction = countAt s line → (∀ r ∈ k.runs, (s.part? r.entry.zone).isSome = true) →
    let s1 := { s with tracker := trackerAtStep s line home micros }
    let fails := fun (t : State) (system : Option (Fin 4)) (detail : Nat) =>
      exec (.encoderCount line home micros) s = .next t ∧ t.engine.runState = .held ∧
      occurrenceTaken s1 t .planInvalid
        { courseNumber := s.engine.courseNumber, position := s1.tracker.position, system := system
          bed := none, needle := none, planTag := some k.tag, detail := detail }
    (s.tracker.referenced = false → ∃ t, fails t none 11) ∧
    (s.tracker.referenced = true →
      (∀ sys : Fin 4, ¬ readyToStart s1 k sys →
        (∀ j : Fin 4, j < sys → readyToStart s1 k j) → ∃ t, fails t (some sys) 12) ∧
      ((∀ sys, readyToStart s1 k sys) →
        (before k.direction s1.tracker.position k.endPosition = false → ∃ t, fails t none 12) ∧
        (before k.direction s1.tracker.position k.endPosition = true →
          exec (.encoderCount line home micros) s = .next { s1 with
            engine := { s.engine with
              runState := .knitting
              course := some { k with
                runs := k.runs.map (fun r => { r with status := some .opened }) } } })))

/-- R93, R127: in KNITTING a step against the course is a reversal: the course is aborted, nothing of it is
advanced, every coil is off, and REVERSAL is recorded with the plan's tag and the position after the step.
The only other occurrences are OVERSPEED (log 34) and those of the abort. -/
def Obligations.ReversalStep : Prop :=
  ∀ (line : EncoderLine) (home : Bool) (micros : Nat) (s : State) (k : Course), s.inReset = false →
    makesStepNow s line → s.engine.runState = .knitting → s.engine.course = some k →
    k.direction ≠ countAt s line →
    let n := trackerAtStep s line home micros
    let s1 := { s with tracker := { n with overspeedReported := n.overspeedReported || n.slow } }
    ∃ t, exec (.encoderCount line home micros) s = .next t ∧ abortedFrom s1 t ∧
      t.link = s.link ∧ t.engine.courseNumber = s.engine.courseNumber ∧
      recordsKept s t [.reversal, .overspeed, .carrierLost, .encoder] ∧
      raisedFrom s t .reversal
        { courseNumber := s.engine.courseNumber, position := n.position, system := none
          bed := none, needle := none, planTag := some k.tag, detail := 0 } true

/-- R110, R124, R125, R126, R142, R145, R147, R148, R162: in KNITTING, a step that does not complete the course and
brings no occurrence that stops it: each channel drives its coil pair by the place of its point, taking the
decision at the head of its queue, and each pin goes down, counts, misses, sets down or stays. A decision of
an entry that is UNFED is driven as MISS; at the step at which the pin misses that entry's catch either is
driven (log 12). A step that brings one aborts the course: every coil is off and every pin up. -/
def Obligations.KnittingStepSelects : Prop :=
  ∀ (line : EncoderLine) (home : Bool) (micros : Nat) (s : State) (k : Course), s.inReset = false →
    makesStepNow s line → s.engine.runState = .knitting → s.engine.course = some k →
    k.direction = countAt s line →
    (trackerAtStep s line home micros).position ≠ k.endPosition →
    let s1 := { s with tracker := trackerAtStep s line home micros }
    (¬ stepQuiet s1 k → ∃ t, exec (.encoderCount line home micros) s = .next t ∧
      t.engine = { s.engine with runState := .held, course := none, queue := [] } ∧
      nothingPending t ∧ (∀ sys : Fin 4, t.pins[sys].state = .up) ∧
      ∀ (bed : Bed) (sys : Fin 4), (t.channel bed sys).coil = .off ∧
        (t.channel bed sys).span = none ∧ (t.channel bed sys).queue = []) ∧
    (stepQuiet s1 k → ∃ t, exec (.encoderCount line home micros) s = .next t ∧
      t.engine.runState = .knitting ∧ t.engine.queue = s.engine.queue ∧
      t.engine.courseNumber = s.engine.courseNumber ∧ t.link.reply = s.link.reply ∧
      t.zones = s.zones ∧ t.geometry = s.geometry ∧ t.store.memory = s.store.memory ∧
      t.store.tiles = s.store.tiles ∧ t.faults.policy = s.faults.policy ∧
      t.tracker.position = s1.tracker.position ∧
      (∀ (bed : Bed) (sys : Fin 4),
        let ch := s.channel bed sys
        let new := t.channel bed sys
        let n := pointNeedle s1 k bed sys
        (ch.span = none → new.coil = .off) ∧
        (∀ sp, ch.span = some sp →
          (insideSpan k.direction sp n = false → new.coil = .off) ∧
          (insideSpan k.direction sp n = true →
            (ch.queue = [] → new.coil = .off ∧
              (t.faults.records[FaultKind.underrun.number]).isSome = true) ∧
            (∀ q rest, ch.queue = q :: rest → (q.needle : Int) = n →
              (∃ more, new.queue = rest ++ more) ∧
              (q.entry = none → new.coil = q.decision.coil) ∧
              (∀ (i : Nat) (r : EntryRun), q.entry = some i → k.runs[i]? = some r →
                (r.status = some .unfed → new.coil = .off) ∧
                (r.status ≠ some .unfed → (∀ c, pinEvent s1 k sys ≠ .miss c i) →
                  new.coil = q.decision.coil) ∧
                (new.coil = .off ∨ new.coil = q.decision.coil)))))) ∧
      (∀ sys : Fin 4,
        match s.pins[sys].state with
        | .up => (∀ i r, nextOpen k sys i r → pinAt s1 k sys r.engage → r.engage ≠ r.release →
              t.pins[sys].state = .catching r.entry.carrier s.geometry.catchWindow i k.direction) ∧
            ((∀ i r, nextOpen k sys i r → pinAt s1 k sys r.engage → r.engage = r.release) →
              t.pins[sys] = s.pins[sys])
        | .catching c left i d => ∀ r, k.runs[i]? = some r →
            (left ≤ 1 ∨ pinAt s1 k sys r.release → t.pins[sys].state = .up) ∧
            (1 < left → ¬ pinAt s1 k sys r.release →
              t.pins[sys].state = .catching c (left - 1) i d)
        | .holding _ i _ => ∀ r, k.runs[i]? = some r →
            (pinAt s1 k sys r.release → t.pins[sys].state = .up) ∧
            (¬ pinAt s1 k sys r.release → t.pins[sys] = s.pins[sys])))

/-- R59, R62, R91, R92, R107, R116, R162: the step in the active direction that brings c to the end position, with
no occurrence of the step that stops the course, completes it: the course number goes up by one, COURSE_DONE
is set, the expected direction is turned, the channels are done with the plan, the zones are advanced and
their pending parts applied, the correction is applied, and the head plan is prepared or fails its
preparation. A correction that leaves the position range is clamped there, withdraws the reference and is an
ENCODER occurrence, which stops. Where an occurrence of the step stops, the part is HELD, with the course
completed before the stop or not (log 13). -/
def Obligations.CompletingStep : Prop :=
  ∀ (line : EncoderLine) (home : Bool) (micros : Nat) (s : State) (k : Course), s.inReset = false →
    makesStepNow s line → s.engine.runState = .knitting → s.engine.course = some k →
    k.direction = countAt s line → (trackerAtStep s line home micros).position = k.endPosition →
    let s1 := { s with tracker := trackerAtStep s line home micros }
    let corrected := k.endPosition + s.tracker.correction.getD 0
    let inRange := -1024 ≤ corrected ∧ corrected ≤ s.geometry.bedWidth + 1023
    ∃ t, exec (.encoderCount line home micros) s = .next t ∧ nothingPending t ∧
      t.geometry = s.geometry ∧ t.store.memory = s.store.memory ∧
      t.faults.policy = s.faults.policy ∧ t.link.reply = s.link.reply ∧
      t.tracker.correction = none ∧
      (∀ (bed : Bed) (sys : Fin 4), (t.channel bed sys).coil = .off) ∧
      (¬ stepQuiet s1 k → t.engine.runState = .held ∧ t.engine.course = none ∧ t.engine.queue = [] ∧
        (t.engine.courseNumber = s.engine.courseNumber ∨
          (t.engine.courseNumber = s.engine.courseNumber + 1 ∧ t.faults.courseDone = true))) ∧
      (s.tracker.correction = none ∨ inRange → t.tracker.position = corrected) ∧
      (s.tracker.correction ≠ none → ¬ inRange → t.tracker.referenced = false ∧
        t.tracker.position = (if corrected < -1024 then -1024 else (s.geometry.bedWidth : Int) + 1023) ∧
        t.engine.runState = .held ∧ t.engine.course = none ∧ t.engine.queue = [] ∧
        ∃ r, t.faults.records[FaultKind.encoder.number] = some r ∧ r.stopped = true) ∧
      (stepQuiet s1 k →
        t.engine.courseNumber = s.engine.courseNumber + 1 ∧ t.faults.courseDone = true ∧
        t.engine.expected = some (opposite k.direction) ∧
        (s.engine.queue = [] → t.engine.course = none ∧ t.engine.queue = [] ∧
          (s.tracker.correction = none ∨ inRange → t.engine.runState = .ready) ∧
          ∀ (bed : Bed) (sys : Fin 4), (t.channel bed sys).span = none ∧
            (t.channel bed sys).queue = [] ∧ (t.channel bed sys).preparer = .idle) ∧
        (∀ p rest, s.engine.queue = p :: rest → s.tracker.correction = none ∨ inRange →
          (t.engine.runState = .prepared ∧ t.engine.queue = rest ∧
            ∃ k', t.engine.course = some k' ∧ k'.tag = p.tag ∧ k'.direction = p.direction ∧
              k'.racking = p.racking ∧ k'.endPosition = p.endPosition ∧
              k'.runs.map (·.entry) = p.entries) ∨
          (t.engine.runState = .held ∧ t.engine.queue = [] ∧ t.engine.course = none ∧
            (t.faults.records[FaultKind.planInvalid.number]).isSome = true)) ∧
        ((∀ sys : Fin 4, s.pins[sys].state = .up) → (∀ r ∈ k.runs, r.status ≠ some .opened) →
          ∀ i : Fin 32, t.zones.places[i] = appliedZone s (rowAdvance s k).zones.places[i]))

/-- R59, R60, R61: the row advance of the zones that the completing plan names: the slots of the DONE entries join
the served set; a full set is emptied and the repeat index, the row and the effective anchor step on; the
backing counter goes up by the DONE entries, modulo 256. Other zones and everything else stand. -/
def Obligations.RowAdvance : Prop :=
  ∀ (s : State) (k : Course),
    (rowAdvance s k).withZones s.zones = s ∧
    (rowAdvance s k).zones.pendingMark = s.zones.pendingMark ∧
    (rowAdvance s k).zones.lastMark = s.zones.lastMark ∧
    ∀ i : Fin 32,
      ((∀ r ∈ k.runs, r.entry.zone ≠ i) →
        (rowAdvance s k).zones.places[i] = s.zones.places[i]) ∧
      (∀ z c t, s.zones.places[i] = some z → z.current? = some c →
        s.store.tiles[c.given.tile] = some t → 0 < t.width →
        (∃ r ∈ k.runs, r.entry.zone = i) →
        let done := (k.runs.filter (fun r =>
          decide (r.entry.zone = i) && decide (r.status = some .done))).map (·.entry.slot)
        let full := ∀ j : Fin 8, j.val < c.given.colours →
          c.served.getLsbD j.val = true ∨ j ∈ done
        ∃ c', (rowAdvance s k).zones.places[i] = some (z.withCurrent c') ∧
          c'.backingCounter = c.backingCounter + BitVec.ofNat 8 done.length ∧
          (¬ full → c'.given = c.given ∧ c'.effective = c.effective ∧
            c'.repeatIndex = c.repeatIndex ∧
            ∀ j : Fin 8, c'.served.getLsbD j.val = (c.served.getLsbD j.val || decide (j ∈ done))) ∧
          (full → c'.served = 0 ∧
            (c.repeatIndex + 1 ≠ c.given.repeats → c'.given = c.given ∧
              c'.effective = c.effective ∧ c'.repeatIndex = c.repeatIndex + 1) ∧
            (c.repeatIndex + 1 = c.given.repeats → c'.repeatIndex = 0 ∧
              (c.given.row + 1 ≠ t.height →
                c'.given = { c.given with row := c.given.row + 1 } ∧
                c'.effective = c.effective) ∧
              (c.given.row + 1 = t.height → c'.given = { c.given with row := 0 } ∧
                (c'.effective : Int) =
                  ((c.effective : Int) + c.given.shift) % (t.width : Int)))))

/-- R143, R145, R147, R148: what one pin does at a step in the active direction, already counted: an UP pin goes
down at the engage point of its next entry, or misses at once where that is the release point; a CATCHING
pin misses when its window or its interval ends, and else counts down; a HOLDING pin sets its carrier down
at the release point. -/
def Obligations.PinAtStep : Prop :=
  ∀ (s : State) (k : Course) (sys : Fin 4), s.engine.course = some k →
    let missed := fun (c : Fin 16) (i : Nat) =>
      stepPin s s sys = (withStatus (withPin s sys .up) k i .unfed,
        [⟨.carrierMissed, none, some sys, none, none, some k.tag, c.val⟩])
    match s.pins[sys].state with
    | .up =>
      ((∀ i r, ¬ nextOpen k sys i r) → stepPin s s sys = (s, [])) ∧
      ∀ i r, nextOpen k sys i r →
        (¬ pinAt s k sys r.engage → stepPin s s sys = (s, [])) ∧
        (pinAt s k sys r.engage → r.engage ≠ r.release →
          stepPin s s sys = (withPin s sys (.catching r.entry.carrier s.geometry.catchWindow i
            k.direction), [])) ∧
        (pinAt s k sys r.engage → r.engage = r.release → missed r.entry.carrier i)
    | .catching c left i d => ∀ r, k.runs[i]? = some r →
      (left ≤ 1 ∨ pinAt s k sys r.release → missed c i) ∧
      (1 < left → ¬ pinAt s k sys r.release →
        stepPin s s sys = (withPin s sys (.catching c (left - 1) i d), []))
    | .holding c i _ => ∀ r, k.runs[i]? = some r →
      (pinAt s k sys r.release → stepPin s s sys =
        (withStatus (withCarrier (withPin s sys .up) c (.resting r.release)) k i .done, [])) ∧
      (¬ pinAt s k sys r.release → stepPin s s sys = (s, []))

/-- R103, R104, R105, R106: a home edge sets the phase to 0 and takes the deviation from the home value. Without
a reference it sets the position; outside KNITTING it corrects it at once; in KNITTING it leaves a pending
correction. Beyond the tolerance it is a HOME_MISMATCH with the position as it stood and the deviation, at
most 15. With no count direction it is ignored, right after a Restart too: between R103 and R182 the model
follows R103 (log 38, DEDUCED). A home edge is a command of its own, and it records HOME's level high (log 8,
DEDUCED). -/
def Obligations.HomeEdgeTaken : Prop :=
  ∀ s : State, s.inReset = false →
    (s.tracker.countDirection = none →
      exec .homeEdge s = .next { s with tracker := { s.tracker with home := true } }) ∧
    (∀ d, s.tracker.countDirection = some d →
      let h : Int := match d with
        | .right => s.geometry.homeNeedle
        | .left => (s.geometry.homeNeedle : Int) - 1
      let delta := h - s.tracker.position
      let atOnce := { s.tracker with home := true, phase := 0, position := h }
      let deferred := { s.tracker with
        home := true, phase := 0, correction := if delta = 0 then none else some delta }
      let context : Context :=
        { courseNumber := s.engine.courseNumber, position := s.tracker.position, system := none
          bed := none, needle := none, planTag := s.engine.standingTag
          detail := min delta.natAbs 15 }
      (s.tracker.referenced = false → exec .homeEdge s =
        .next { s with tracker := { atOnce with referenced := true, correction := none } }) ∧
      (s.tracker.referenced = true → delta.natAbs ≤ s.geometry.homeTolerance →
        (s.engine.runState ≠ .knitting → exec .homeEdge s = .next { s with tracker := atOnce }) ∧
        (s.engine.runState = .knitting → exec .homeEdge s = .next { s with tracker := deferred })) ∧
      (s.tracker.referenced = true → s.geometry.homeTolerance < delta.natAbs →
        (s.engine.runState ≠ .knitting → ∃ t, exec .homeEdge s = .next t ∧
          occurrenceTaken { s with tracker := atOnce } t .homeMismatch context) ∧
        (s.engine.runState = .knitting → ∃ t, exec .homeEdge s = .next t ∧
          occurrenceTaken { s with tracker := deferred } t .homeMismatch context)))

/-! ### The Tile Store -/

/-- R23, R24, R33, R35: what the completion of an access does to pixel memory: a write leaves its data with good
parity, a write of the clear zero pixels and parity 0; a read leaves the word as it stands, with the bits that
have changed in the store since (log 6); no other word changes. -/
def Obligations.AccessMemory : Prop :=
  ∀ (u : PixelWord) (s : State) (a : Access), s.inReset = false → memoryLaw s →
    s.store.inFlight = some a → a.word < memorySize →
    ∃ t, exec (.storeAccessComplete u) s = .next t ∧ memoryLaw t ∧
      (∀ w, w ≠ a.word → readWord t.store.memory w = readWord s.store.memory w) ∧
      match a with
      | .clear w => readWord t.store.memory w = { data := 0, parity := false }
      | .loadWrite w d | .orphanWrite w d => (readWord t.store.memory w).data = d ∧
          parityPasses (readWord t.store.memory w) = true
      | .fetch _ w | .readBack w | .orphanRead w =>
          readWord t.store.memory w =
            { data := (readWord s.store.memory w).data ^^^ u.data
              parity := (readWord s.store.memory w).parity ^^ u.parity }

/-- R33: at the completion of a loader's write the word stands in pixel memory with good parity, and the oldest
word leaves the buffer. The write that empties it sets
LOAD_EMPTY and closes a cursor that stands at the end of its tile's extent; while words remain the loader
asks for the next, and has the port where no preparer asks for a word. -/
def Obligations.LoadWriteCompletes : Prop :=
  ∀ (u : PixelWord) (s : State) (w : Nat) (d : BitVec 64), s.inReset = false →
    memoryLaw s → s.store.inFlight = some (.loadWrite w d) → w < memorySize →
    ∃ t, exec (.storeAccessComplete u) s = .next t ∧
      (readWord t.store.memory w).data = d ∧ parityPasses (readWord t.store.memory w) = true ∧
      t.store.buffer = s.store.buffer.tail ∧ t.store.tiles = s.store.tiles ∧
      t.zones = s.zones ∧ t.carriers = s.carriers ∧ t.pins = s.pins ∧ t.tracker = s.tracker ∧
      t.geometry = s.geometry ∧ t.faults.records = s.faults.records ∧
      (s.store.buffer.tail = [] → t.faults.loadEmpty = true ∧
        (∀ c u, s.store.cursor = some c → s.store.tiles[c.tile] = some u →
          (c.next = u.base + u.height * pitchOf u.width → t.store.cursor = none) ∧
          (c.next ≠ u.base + u.height * pitchOf u.width → t.store.cursor = s.store.cursor))) ∧
      (s.store.buffer.tail ≠ [] → t.faults.loadEmpty = s.faults.loadEmpty ∧
        t.store.cursor = s.store.cursor) ∧
      (∀ w' d' rest, s.store.buffer.tail = (w', d') :: rest → s.engine.course = none →
        (∀ i, ¬ asksForWord s i) → t.store.inFlight = some (.loadWrite w' d') ∧
          t.store.lastGranted = .loader)

/-- R16, R18, R117, R118, R119: what a preparer does at once. A needle's entry is the first of its system whose
zone it lies in. A preparer that is FILLING or FULL goes on from its next needle: gap needles are MISS of GAP,
back zone needles are decided by their backing rule. It ends FULL at 48 decisions, FINISHED past the span's
end, or FILLING at a front zone needle, whose word it asks for; the float counter of an entry whose zone the
next needle comes to lie in is 0. A preparer in any other state does nothing. -/
def Obligations.PreparersRun : Prop :=
  ∀ (s : State) (k : Course) (bed : Bed) (sys : Fin 4), s.engine.course = some k →
    let lies := fun (n : Nat) (r : EntryRun) => r.entry.system = sys ∧ ∃ z : ZonePart,
      s.part? r.entry.zone = some z ∧ match bed with
        | .front => z.given.left ≤ n ∧ n ≤ z.given.right
        | .back => (z.given.left : Int) ≤ n + k.racking ∧ (n : Int) + k.racking ≤ z.given.right
    let ch := s.channel bed sys
    let t := refill s bed sys
    let new := t.channel bed sys
    (∀ n : Nat, (entryAt s k bed sys n = none ↔ ∀ r ∈ k.runs, ¬ lies n r) ∧
      ∀ (i : Nat) (r : EntryRun), entryAt s k bed sys n = some (i, r) ↔ k.runs[i]? = some r ∧
        lies n r ∧ ∀ (j : Nat) (q : EntryRun), j < i → k.runs[j]? = some q → ¬ lies n q) ∧
    (ch.preparer ≠ .filling → ch.preparer ≠ .full → t = s) ∧
    ∀ sp : Span, ch.preparer = .filling ∨ ch.preparer = .full → ch.span = some sp →
      ch.queue.length ≤ 48 →
      (ch.next = .past → t = setChannel s bed sys { ch with
        preparer := .finished, pendingRead := none }) ∧
      ∀ n : Nat, ch.next = .at n → insideSpan k.direction sp n = true → ∃ more runs,
        t.engine = { s.engine with course := some { k with runs := runs } } ∧
        { setChannel t bed sys ch with engine := s.engine } = s ∧
        new = { ch with
          queue := ch.queue ++ more, preparer := new.preparer, next := new.next
          pendingRead := new.pendingRead } ∧
        runs.map EntryRun.fixed = k.runs.map EntryRun.fixed ∧
        (∀ (i : Nat) (q : Queued), more[i]? = some q →
          (q.needle : Int) = ahead k.direction n i ∧ insideSpan k.direction sp q.needle = true ∧
          (entryAt s k bed sys q.needle = none →
            q.decision = .miss ∧ q.origin = .gap ∧ q.entry = none) ∧
          ∀ j r z, entryAt s k bed sys q.needle = some (j, r) → s.part? r.entry.zone = some z →
            bed = .back ∧ q.decision = backDecision z r.entry r.ordinal q.needle ∧
            q.origin = .backing ∧ q.entry = some j) ∧
        let goesOn := ahead k.direction n more.length
        match new.preparer with
        | .finished => new.next = .past ∧ new.pendingRead = none ∧
            goesOn = ahead k.direction sp.last 1
        | .full => ch.queue.length + more.length = 48 ∧ new.pendingRead = none ∧
            ∃ n' : Nat, new.next = .at n' ∧ (n' : Int) = goesOn ∧
              insideSpan k.direction sp n' = true
        | .filling => bed = .front ∧ ch.queue.length + more.length < 48 ∧
            ∃ (n' j : Nat) (r : EntryRun) (z : ZonePart), new.next = .at n' ∧
              (n' : Int) = goesOn ∧ entryAt s k .front sys n' = some (j, r) ∧
              s.part? r.entry.zone = some z ∧
              (∀ u, s.store.tiles[z.given.tile] = some u →
                new.pendingRead = some (z.wordOf u n')) ∧
              (more ≠ [] → runs[j]?.map (·.floatCount) = some 0)
        | .idle | .fetching => False

/-- R13, R18, R120, R121, R123, R133: what a completed fetch does. Its segment is the run of needles from its start
needle to the far edge of the zone whose pixels lie in its word. Those of them that the point has not reached
join the queue in pass order, as far as it has room, each with the decision that the pixels, the entry's slot
and the float counter give, or all as MISS of FALLBACK where the check failed, and then one PARITY is reported
with its context. The next needle follows the last one queued, the float counter is left as the queued
decisions leave it, and the preparer goes on FILLING. Of a stale read no decision is made: only gap needles
can join a queue then. -/
def Obligations.FetchCompletes : Prop :=
  (∀ (s : State) (k : Course) (sys : Fin 4) (z : ZonePart) (t : Tile) (f : Fetch),
    let d := k.direction
    (segment z t d f).Pairwise (fun a b => before d a b = true) ∧
    ∀ n : Nat, (n ∈ segment z t d f ↔ atOrBefore d f.start n = true ∧
        atOrBefore d n (z.given.farEdge d) = true ∧ ∀ m : Nat, atOrBefore d f.start m = true →
          atOrBefore d m n = true → z.wordOf t m = f.word) ∧
      (reached s k sys n = true ↔ s.engine.runState = .knitting ∧
        atOrBefore d n (pointNeedle s k .front sys) = true)) ∧
  (∀ (s : State) (sys : Fin 4) (data : BitVec 64) (good : Bool) (k : Course) (f : Fetch) (sp : Span)
      (i : Nat) (r : EntryRun) (z : ZonePart) (t : Tile),
    s.engine.course = some k → s.front[sys].fetch = some f → s.front[sys].span = some sp →
    entryAt s k .front sys f.start = some (i, r) → s.part? r.entry.zone = some z →
    s.store.tiles[z.given.tile] = some t →
    let kept := ((segment z t k.direction f).filter (fun n => !reached s k sys n)).take
      (48 - s.front[sys].queue.length)
    let c := completeFetch s sys data good
    let next := c.1.front[sys].next
    c.2 = (if good then [] else
      [⟨.parity, none, some sys, some .front, some f.start, some k.tag, 0⟩]) ∧
    (∃ new, c.1.front[sys] = { s.front[sys] with
        fetch := none, preparer := .filling, queue := s.front[sys].queue ++ new, next := next } ∧
      new.map (·.needle) = kept ∧
      new.map (fun q => (q.decision, q.origin)) =
        fetchDecisions z t r.entry.slot data good r.floatCount kept ∧
      ∀ q ∈ new, q.entry = some i) ∧
    (kept = [] → next = s.front[sys].next) ∧
    (∀ n, kept.getLast? = some n → (n = sp.last → next = .past) ∧
      (n ≠ sp.last → next = .at (match k.direction with | .right => n + 1 | .left => n - 1))) ∧
    ((∀ n ∈ kept, (entryAt s k .front sys n).map (·.1) = some i) → ∃ runs,
      c.1.engine = { s.engine with course := some { k with runs := runs } } ∧
      runs.map EntryRun.fixed = k.runs.map EntryRun.fixed ∧
      runs[i]?.map (·.floatCount) =
        some (fetchCount z t r.entry.slot data good r.floatCount kept) ∧
      ∀ (j : Nat) (q : EntryRun), j ≠ i → k.runs[j]? = some q →
        let enters := kept ≠ [] ∧ ∃ n q', next = .at n ∧ entryAt s k .front sys n = some (j, q')
        (enters → runs[j]?.map (·.floatCount) = some 0) ∧
        (¬ enters → runs[j]?.map (·.floatCount) = some q.floatCount))) ∧
  (∀ (u : PixelWord) (s : State) (sys : Fin 4) (w : Nat), s.inReset = false →
    s.store.inFlight = some (.fetch sys w) → w < memorySize →
    let v : PixelWord := { data := (readWord s.store.memory w).data ^^^ u.data
                           parity := (readWord s.store.memory w).parity ^^ u.parity }
    let onlyGaps := fun more : List Queued =>
      ∀ q ∈ more, q.decision = .miss ∧ q.origin = .gap ∧ q.entry = none
    (s.front[sys].stale = true → ∃ t more, exec (.storeAccessComplete u) s = .next t ∧
      t.faults = s.faults ∧ t.engine.runState = s.engine.runState ∧
      t.front[sys].stale = false ∧ t.front[sys].queue = s.front[sys].queue ++ more ∧
      onlyGaps more) ∧
    (s.front[sys].stale = false → parityPasses v = true →
      ∃ t more, exec (.storeAccessComplete u) s = .next t ∧ t.faults = s.faults ∧
        t.engine.runState = s.engine.runState ∧
        t.front[sys].queue = (completeFetch s sys v.data true).1.front[sys].queue ++ more ∧
        onlyGaps more) ∧
    (s.front[sys].stale = false → parityPasses v = false → s.engine.course.isSome = true →
      s.front[sys].fetch.isSome = true → s.front[sys].span.isSome = true →
      ∃ t, exec (.storeAccessComplete u) s = .next t ∧
        (t.faults.records[FaultKind.parity.number]).isSome = true ∧
        (causesAbort s .parity → t.engine.runState = .held) ∧
        (¬ causesAbort s .parity → t.engine.runState = s.engine.runState ∧
          ∃ more, onlyGaps more ∧ t.front[sys].queue =
            (completeFetch s sys v.data false).1.front[sys].queue ++ more)))

/-- R37, R38, R39: whom the arbiter grants. The first urgent preparer round from the one after the last preparer
granted comes before everybody else. With none urgent, ALTERNATING grants a pending loader that was not
granted last, else the first pending preparer in the same round, else the loader; ROTATING grants the first
pending requester round from the one after the last granted. -/
def Obligations.ArbiterChooses : Prop :=
  ∀ s : State,
    (∀ i, isUrgent s i → (∀ j, isUrgent s j →
      turnAfter s.store.lastPreparer i ≤ turnAfter s.store.lastPreparer j) →
      arbiterChoice s = some (.front i)) ∧
    ((∀ i, ¬ isUrgent s i) →
      (s.geometry.arbiterMode = .alternating →
        (loaderAsks s → s.store.lastGranted ≠ .loader → arbiterChoice s = some .loader) ∧
        (¬ (loaderAsks s ∧ s.store.lastGranted ≠ .loader) →
          (∀ i, asksForWord s i → (∀ j, asksForWord s j →
            turnAfter s.store.lastPreparer i ≤ turnAfter s.store.lastPreparer j) →
            arbiterChoice s = some (.front i)) ∧
          ((∀ i, ¬ asksForWord s i) → loaderAsks s → arbiterChoice s = some .loader))) ∧
      (s.geometry.arbiterMode = .rotating → ∀ r, asksForPort s r →
        (∀ q, asksForPort s q →
          circleTurn s.store.lastGranted r ≤ circleTurn s.store.lastGranted q) →
        arbiterChoice s = some r) ∧
      ((∀ r, ¬ asksForPort s r) → arbiterChoice s = none))

/-- R26: the checks of Define Tile in their order, and the record it creates, with p and the last word of the
extent in the reply; that p is one byte there is the model's reading (log 17). Every tile of the directory has
at least one pixel (R25). -/
def Obligations.DefineTileTaken : Prop :=
  ∀ (tag id : Byte) (width height base : Half) (s : State), takesRequests s →
    (∀ (j : Fin 64) (v : Tile), s.store.tiles[j] = some v → 1 ≤ v.width ∧ 1 ≤ v.height) →
    let t : Tile := { width := width.toNat, height := height.toNat, base := base.toNat
                      references := 0 }
    let pitch := pitchOf t.width
    (64 ≤ id.toNat → exec (.defineTile tag id width height base) s =
      .next (refusedWith s tag .range)) ∧
    ∀ i : Fin 64, id.toNat = i.val →
      (s.store.tiles[i].isSome = true → exec (.defineTile tag id width height base) s =
        .next (refusedWith s tag .inUse)) ∧
      (s.store.tiles[i] = none →
        (t.width < 1 ∨ 1024 < t.width ∨ t.height < 1 ∨ 1024 < t.height →
          exec (.defineTile tag id width height base) s = .next (refusedWith s tag .range)) ∧
        (1 ≤ t.width → t.width ≤ 1024 → 1 ≤ t.height → t.height ≤ 1024 →
          (65535 < t.base + t.height * pitch - 1 →
            exec (.defineTile tag id width height base) s = .next (refusedWith s tag .range)) ∧
          (t.base + t.height * pitch - 1 ≤ 65535 →
            ((∃ (j : Fin 64) (v : Tile) (w : Nat), s.store.tiles[j] = some v ∧ inExtent v w ∧
                inExtent t w) →
              exec (.defineTile tag id width height base) s =
                .next (refusedWith s tag .overlap)) ∧
            ((∀ (j : Fin 64) (v : Tile) (w : Nat), s.store.tiles[j] = some v → inExtent v w →
                ¬ inExtent t w) →
              exec (.defineTile tag id width height base) s =
                .next (answeredWith s { s with
                  store := { s.store with tiles := s.store.tiles.set i (some t) } } tag
                  (BitVec.ofNat 8 pitch ::
                    bytesOfHalf (BitVec.ofNat 16 (t.base + t.height * pitch - 1))))))))

/-- R28, R31: the checks of Retire Tile and of Load Tile in their order; the one removes the record, the other
opens the cursor on the tile's row. -/
def Obligations.RetireAndLoadTile : Prop :=
  ∀ (tag id : Byte) (row : Half) (s : State), takesRequests s →
    (64 ≤ id.toNat → exec (.retireTile tag id) s = .next (refusedWith s tag .range) ∧
      exec (.loadTile tag id row) s = .next (refusedWith s tag .range)) ∧
    ∀ i : Fin 64, id.toNat = i.val →
      (s.store.tiles[i] = none →
        exec (.retireTile tag id) s = .next (refusedWith s tag .noRecord) ∧
        exec (.loadTile tag id row) s = .next (refusedWith s tag .noRecord)) ∧
      ∀ t, s.store.tiles[i] = some t →
        (0 < t.references → exec (.retireTile tag id) s = .next (refusedWith s tag .inUse)) ∧
        (t.references = 0 →
          ((∃ c, s.store.cursor = some c ∧ c.tile = i) →
            exec (.retireTile tag id) s = .next (refusedWith s tag .busy)) ∧
          ((∀ c, s.store.cursor = some c → c.tile ≠ i) →
            exec (.retireTile tag id) s = .next (answeredWith s { s with
              store := { s.store with tiles := s.store.tiles.set i none } } tag []))) ∧
        (t.height ≤ row.toNat → exec (.loadTile tag id row) s = .next (refusedWith s tag .range)) ∧
        (row.toNat < t.height →
          (0 < t.references → exec (.loadTile tag id row) s = .next (refusedWith s tag .inUse)) ∧
          (t.references = 0 →
            (s.store.buffer ≠ [] →
              exec (.loadTile tag id row) s = .next (refusedWith s tag .busy)) ∧
            (s.store.buffer = [] →
              exec (.loadTile tag id row) s = .next (answeredWith s { s with
                store := { s.store with
                  cursor := some ⟨i, t.base + row.toNat * pitchOf t.width⟩ } } tag []))))

/-- R32, R197: the checks of Tile Data in their order, and the words it puts in the load buffer, each bound to its
destination from the cursor's next word on; the cursor moves past them. The reply does not wait for a write.
An empty payload, which no frame hands to the store, is answered BAD_LENGTH (log 32). -/
def Obligations.TileDataTaken : Prop :=
  ∀ (tag : Byte) (bytes : List Byte) (s : State), takesRequests s →
    (bytes = [] → exec (.tileData tag bytes) s = .next (refusedWith s tag .badLength)) ∧
    (1 ≤ bytes.length → bytes.length ≤ 72 →
      (s.store.cursor = none → exec (.tileData tag bytes) s =
        .next (refusedWith s tag .noRecord)) ∧
      ∀ c t, s.store.cursor = some c → s.store.tiles[c.tile] = some t →
        let n := bytes.length / 8
        let limit := t.base + t.height * pitchOf t.width
        (s.store.buffer ≠ [] → exec (.tileData tag bytes) s = .next (refusedWith s tag .busy)) ∧
        (s.store.buffer = [] →
          (bytes.length % 8 ≠ 0 ∨ 64 < bytes.length → exec (.tileData tag bytes) s =
            .next (refusedWith s tag .badLength)) ∧
          (bytes.length % 8 = 0 → bytes.length ≤ 64 →
            (limit - c.next < n → exec (.tileData tag bytes) s =
              .next (refusedWith s tag .range)) ∧
            (n ≤ limit - c.next → ∃ u, exec (.tileData tag bytes) s = .next u ∧
              u.link = answeredLink s.link tag .ok [] ∧
              u.store.cursor = some ⟨c.tile, c.next + n⟩ ∧ u.store.memory = s.store.memory ∧
              u.store.tiles = s.store.tiles ∧ u.store.buffer.length = n ∧
              (∀ i, i < n → ∃ d : BitVec 64, u.store.buffer[i]? = some (c.next + i, d) ∧
                ∀ j, j < 8 → some (d.extractLsb' (8 * j) 8) = bytes[8 * i + j]?) ∧
              u.zones = s.zones ∧ u.carriers = s.carriers ∧ u.pins = s.pins ∧
              u.tracker = s.tracker ∧ u.faults = s.faults ∧ u.geometry = s.geometry))))

/-- R34, R40, R189, R190: the checks of Read Tile Words in their order; one that passes holds the request slot and
asks for its words in order. Each completed read adds its word with the outcome of its check, and the last
one answers: OK or PARITY, the data as read, and the byte of the failed words. -/
def Obligations.ReadTileWordsTaken : Prop :=
  (∀ (tag id : Byte) (row : Half) (word count : Byte) (s : State), takesRequests s →
    (64 ≤ id.toNat → exec (.readTileWords tag id row word count) s =
      .next (refusedWith s tag .range)) ∧
    ∀ i : Fin 64, id.toNat = i.val →
      (s.store.tiles[i] = none → exec (.readTileWords tag id row word count) s =
        .next (refusedWith s tag .noRecord)) ∧
      ∀ t, s.store.tiles[i] = some t →
        let first := t.base + row.toNat * pitchOf t.width + word.toNat
        (t.height ≤ row.toNat ∨ pitchOf t.width ≤ word.toNat ∨ count.toNat < 1 ∨
            8 < count.toNat ∨ t.base + t.height * pitchOf t.width < first + count.toNat →
          exec (.readTileWords tag id row word count) s = .next (refusedWith s tag .range)) ∧
        (row.toNat < t.height → word.toNat < pitchOf t.width → 1 ≤ count.toNat →
          count.toNat ≤ 8 → first + count.toNat ≤ t.base + t.height * pitchOf t.width →
          ∃ u r, exec (.readTileWords tag id row word count) s = .next u ∧
            u.link = { s.link with
              request := some r, reply := none, dropped := false, transfer := none } ∧
            r.tag = tag ∧ r.previousLost = s.link.replyReady ∧ r.words = [] ∧
            (r.waiting = (List.range count.toNat).map (first + ·) ∨
              (u.store.inFlight = some (.readBack first) ∧
                first :: r.waiting = (List.range count.toNat).map (first + ·))) ∧
            u.store.memory = s.store.memory ∧ u.store.tiles = s.store.tiles ∧
            u.store.cursor = s.store.cursor ∧ u.store.buffer = s.store.buffer ∧
            u.zones = s.zones ∧ u.faults = s.faults)) ∧
  (∀ (x : PixelWord) (s : State) (w : Nat) (r : ReadBack), s.inReset = false →
    s.store.inFlight = some (.readBack w) → w < memorySize → s.link.request = some r →
    let v : PixelWord := { data := (readWord s.store.memory w).data ^^^ x.data
                           parity := (readWord s.store.memory w).parity ^^ x.parity }
    let words := r.words ++ [(v.data, parityPasses v)]
    ∃ u, exec (.storeAccessComplete x) s = .next u ∧ u.faults = s.faults ∧
      (r.waiting ≠ [] → ∃ r', u.link.request = some r' ∧ r'.words = words ∧ r'.tag = r.tag ∧
        u.link.reply = s.link.reply) ∧
      (r.waiting = [] → u.link.request = none ∧ ∃ failed : Byte,
        u.link.reply = some ⟨⟨r.tag, if words.all (·.2) then .ok else .parity, r.previousLost,
          words.flatMap (fun p => wordBytes p.1) ++ [failed]⟩, false⟩ ∧
        (words.length ≤ 8 → ∀ i, i < 8 → failed.getLsbD i =
          (match words[i]? with
           | some p => !p.2
           | none => false))))

/-! ### The Zone Table -/

/-- R49, R50, R51: the checks of Define Zone in their order, and the zone it creates: LIVE with its derived fields
between courses, PENDING in PREPARED and KNITTING. One more zone field names the tile. That the E of the reply
is two bytes is the model's reading (log 17). Tiles have at least one column (R25). -/
def Obligations.DefineZoneTaken : Prop :=
  ∀ (tag id : Byte) (p : ZonePayload) (s : State), takesRequests s → rangesOrdered s →
    (∀ (j : Fin 64) (v : Tile), s.store.tiles[j] = some v → 1 ≤ v.width) →
    let command := Instr.defineZone tag id p
    (32 ≤ id.toNat → exec command s = .next (refusedWith s tag .range)) ∧
    ∀ i : Fin 32, id.toNat = i.val →
      (s.zones.places[i].isSome = true → exec command s = .next (refusedWith s tag .inUse)) ∧
      (s.zones.places[i] = none →
        (¬ zoneInRange s.geometry p → exec command s = .next (refusedWith s tag .range)) ∧
        (zoneInRange s.geometry p → ∃ f, zoneMatches p f ∧
          (s.store.tiles[f.tile] = none →
            exec command s = .next (refusedWith s tag .noRecord)) ∧
          ∀ v, s.store.tiles[f.tile] = some v →
            ((∃ c, s.store.cursor = some c ∧ c.tile = f.tile) →
              exec command s = .next (refusedWith s tag .inUse)) ∧
            ((∀ c, s.store.cursor = some c → c.tile ≠ f.tile) →
              (v.height ≤ f.row → exec command s = .next (refusedWith s tag .range)) ∧
              (f.row < v.height →
                (overlapsProjected s i f.left f.right →
                  exec command s = .next (refusedWith s tag .overlap)) ∧
                (¬ overlapsProjected s i f.left f.right →
                  let tiles := s.store.tiles.set f.tile
                    (some { v with references := v.references + 1 })
                  let e := f.anchor % (v.width : Int)
                  (¬ staging s → exec command s = .next (answeredWith s { s with
                    store := { s.store with tiles := tiles }
                    zones := { s.zones with places := s.zones.places.set i (some (.live
                      { given := f, effective := e.toNat, repeatIndex := 0, backingCounter := 0
                        served := 0 } none)) } } tag ([0, 1] ++ bytesOfHalf (BitVec.ofInt 16 e)))) ∧
                  (staging s → exec command s = .next (answeredWith s { s with
                    store := { s.store with tiles := tiles }
                    zones := { s.zones with places := s.zones.places.set i (some (.pending f)) } }
                    tag [1, 0, 0, 0])))))))

/-- R52, R53, R54, R55: the checks of Edit Zone in their order, and what it does. Between courses it changes the
current part at once with the derived changes; in PREPARED and KNITTING it writes over the pending part and
leaves the current part. The tile references move with the fields. No zone but a PENDING or LIVE one is
edited, and between courses no zone has a pending part (R46). -/
def Obligations.EditZoneTaken : Prop :=
  ∀ (tag id : Byte) (p : EditPayload) (s : State), takesRequests s → rangesOrdered s →
    (∀ (j : Fin 64) (v : Tile), s.store.tiles[j] = some v → 1 ≤ v.width) →
    let command := Instr.editZone tag id p
    (32 ≤ id.toNat → exec command s = .next (refusedWith s tag .range)) ∧
    ∀ i : Fin 32, id.toNat = i.val →
      (s.zones.places[i] = none → exec command s = .next (refusedWith s tag .noRecord)) ∧
      ∀ z, s.zones.places[i] = some z →
        (z.isRetiring = true → exec command s = .next (refusedWith s tag .noRecord)) ∧
        (z.isRetiring = false → s.store.tiles[z.baseFields.tile].isSome = true →
          (∀ t, z.pendingPart.tile = some t → s.store.tiles[t].isSome = true) →
          (¬ editInRange s.geometry p → exec command s = .next (refusedWith s tag .range)) ∧
          (editInRange s.geometry p → ∃ f, editMatches p f ∧
            (givesNothing f → exec command s = .next (answeredWith s s tag [2])) ∧
            (¬ givesNothing f →
              ((∃ t, f.tile = some t ∧ s.store.tiles[t] = none) →
                exec command s = .next (refusedWith s tag .noRecord)) ∧
              ((∀ t, f.tile = some t → s.store.tiles[t].isSome = true) →
                ((∃ t c, f.tile = some t ∧ s.store.cursor = some c ∧ c.tile = t) →
                  exec command s = .next (refusedWith s tag .inUse)) ∧
                ((∀ t c, f.tile = some t → s.store.cursor = some c → c.tile ≠ t) →
                  (¬ agrees s z.baseFields z.pendingPart f →
                    exec command s = .next (refusedWith s tag .range)) ∧
                  (agrees s z.baseFields z.pendingPart f →
                    let left := resulting f.left z.pendingPart.left z.baseFields.left
                    let right := resulting f.right z.pendingPart.right z.baseFields.right
                    let overlap := (f.left ≠ none ∨ f.right ≠ none) ∧
                      overlapsProjected s i left right
                    (overlap → exec command s = .next (refusedWith s tag .overlap)) ∧
                    (¬ overlap →
                      (∀ c, ¬ staging s → z = .live c none → ∃ c' tiles,
                        exec command s = .next (answeredWith s { s with
                          store := { s.store with tiles := tiles }
                          zones := { s.zones with
                            places := s.zones.places.set i (some (.live c' none)) } } tag [0]) ∧
                        editedPart c f (s.widthOf (f.tile.getD c.given.tile)) c' ∧
                        referencesMoved s { s with store := { s.store with tiles := tiles } }
                          (f.tile.map (fun _ => c.given.tile)) f.tile) ∧
                      (staging s → ∃ z' tiles,
                        exec command s = .next (answeredWith s { s with
                          store := { s.store with tiles := tiles }
                          zones := { s.zones with places := s.zones.places.set i (some z') } }
                          tag [1]) ∧
                        (match z with
                          | .pending _ => ∃ g, z' = .pending g ∧
                              writtenOver z.pendingPart f g.asPending
                          | .live c _ => ∃ q, z' = .live c (some q) ∧ writtenOver z.pendingPart f q
                          | .retiring _ _ => False) ∧
                        referencesMoved s { s with store := { s.store with tiles := tiles } }
                          (f.tile.bind (fun _ => z.pendingPart.tile)) f.tile))))))))

/-- R56, R57, R66: the checks of Retire Zone in their order. A PENDING zone is removed, and so is a LIVE zone
between courses; in PREPARED and KNITTING a LIVE zone becomes RETIRING and keeps its staged fields. Mark is
refused while one is pending, waits where a zone has a pending part, and else completes at once. Between
courses no zone has a pending part (R46). -/
def Obligations.RetireZoneAndMarkTaken : Prop :=
  ∀ (tag id : Byte) (s : State), takesRequests s →
    (32 ≤ id.toNat → exec (.retireZone tag id) s = .next (refusedWith s tag .range)) ∧
    (∀ i : Fin 32, id.toNat = i.val →
      (s.zones.places[i] = none →
        exec (.retireZone tag id) s = .next (refusedWith s tag .noRecord)) ∧
      ∀ z, s.zones.places[i] = some z →
        (z.isRetiring = true → exec (.retireZone tag id) s = .next (refusedWith s tag .noRecord)) ∧
        (z.isRetiring = false →
          (planNames s i → exec (.retireZone tag id) s = .next (refusedWith s tag .inUse)) ∧
          (¬ planNames s i →
            (∀ tile, (∃ f, z = .pending f ∧ f.tile = tile) ∨
                (∃ c, ¬ staging s ∧ z = .live c none ∧ c.given.tile = tile) →
              ∃ tiles, exec (.retireZone tag id) s = .next (answeredWith s { s with
                store := { s.store with tiles := tiles }
                zones := { s.zones with places := s.zones.places.set i none } } tag [0]) ∧
                referencesMoved s { s with store := { s.store with tiles := tiles } }
                  (some tile) none) ∧
            (∀ c p, staging s → z = .live c p →
              let places := s.zones.places.set i
                (some (.retiring c (p.getD PendingFields.empty)))
              exec (.retireZone tag id) s = .next (answeredWith s { s with
                zones := { s.zones with places := places } } tag [1]))))) ∧
    (s.zones.pendingMark.isSome = true →
      exec (.mark tag id) s = .next (refusedWith s tag .busy)) ∧
    (s.zones.pendingMark = none →
      (someZonePending s → exec (.mark tag id) s = .next (answeredWith s { s with
        zones := { s.zones with pendingMark := some id } } tag [1])) ∧
      (¬ someZonePending s → exec (.mark tag id) s = .next (answeredWith s { s with
        zones := { s.zones with lastMark := id }
        faults := { s.faults with markDone := true } } tag [0])))

/-! ### Yarn carriers and outputs -/

/-- R136, R137, R138, R139, R140: the checks of Install, Place and Remove Carrier in their order, and the one
record that each writes: the yarn code is set, kept or returned to 0. -/
def Obligations.CarrierRequestsTaken : Prop :=
  ∀ (tag id yarn : Byte) (position : Half) (s : State), takesRequests s →
    let x := position.toInt
    let install := Instr.installCarrier tag id position yarn
    let place := Instr.placeCarrier tag id position
    let remove := Instr.removeCarrier tag id
    let outside := x < -256 ∨ (s.geometry.bedWidth : Int) + 255 < x
    (16 ≤ id.toNat → exec install s = .next (refusedWith s tag .range) ∧
      exec place s = .next (refusedWith s tag .range) ∧
      exec remove s = .next (refusedWith s tag .range)) ∧
    ∀ c : Fin 16, id.toNat = c.val →
      (s.carriers[c].state ≠ .absent → exec install s = .next (refusedWith s tag .inUse)) ∧
      (s.carriers[c].state = .absent →
        exec place s = .next (refusedWith s tag .noRecord) ∧
        exec remove s = .next (refusedWith s tag .noRecord) ∧
        (outside → exec install s = .next (refusedWith s tag .range)) ∧
        (¬ outside →
          (clearanceFails s c x → exec install s = .next (refusedWith s tag .overlap)) ∧
          (¬ clearanceFails s c x → exec install s = .next (answeredWith s { s with
            carriers := s.carriers.set c { state := .resting x, yarn := yarn } } tag [])))) ∧
      (s.carriers[c].state ≠ .absent →
        (carrierHeld s c → exec place s = .next (refusedWith s tag .inUse) ∧
          exec remove s = .next (refusedWith s tag .inUse)) ∧
        (¬ carrierHeld s c →
          exec remove s = .next (answeredWith s { s with
            carriers := s.carriers.set c { state := .absent, yarn := 0 } } tag []) ∧
          (outside → exec place s = .next (refusedWith s tag .range)) ∧
          (¬ outside →
            (clearanceFails s c x → exec place s = .next (refusedWith s tag .overlap)) ∧
            (¬ clearanceFails s c x → exec place s = .next (answeredWith s
              (withCarrier s c (.resting x)) tag [])))))

/-- R146, R147, R149: a rise of a catch sense in KNITTING under a CATCHING pin takes the carrier up; a fall under
a HOLDING pin loses it, which is a CARRIER_LOST; any other edge changes the kept level alone, and an edge to
the level that stands is none (log 10). A miss that is due is a CARRIER_MISSED with its entry UNFED; where
none is due nothing happens (log 11). -/
def Obligations.CatchSensesTaken : Prop :=
  ∀ (pin : Fin 4) (s : State), s.inReset = false →
    let sensed := fun (level : Bool) =>
      { s with pins := s.pins.set pin { s.pins[pin] with sense := level } }
    let context := fun (k : Course) (c : Fin 16) => ({
      courseNumber := s.engine.courseNumber, position := s.tracker.position, system := some pin
      bed := none, needle := none, planTag := some k.tag, detail := c.val } : Context)
    (s.pins[pin].sense = true → exec (.catchRise pin) s = .next s) ∧
    (s.pins[pin].sense = false → exec (.catchFall pin) s = .next s ∧
      ((s.engine.runState ≠ .knitting ∨ ∀ c n i d, s.pins[pin].state ≠ .catching c n i d) →
        exec (.catchRise pin) s = .next (sensed true)) ∧
      (∀ k c n i d, s.engine.runState = .knitting → s.engine.course = some k →
        s.pins[pin].state = .catching c n i d → exec (.catchRise pin) s =
          .next (withStatus (withCarrier (withPin (sensed true) pin (.holding c i d)) c
            (.carried pin i)) k i .fed))) ∧
    (s.pins[pin].sense = true →
      ((s.engine.runState ≠ .knitting ∨ ∀ c i d, s.pins[pin].state ≠ .holding c i d) →
        exec (.catchFall pin) s = .next (sensed false)) ∧
      (∀ k c i d, s.engine.runState = .knitting → s.engine.course = some k →
        s.pins[pin].state = .holding c i d →
        let lost := withStatus (withCarrier (withPin (sensed false) pin .up) c .lost) k i .unfed
        (s.faults.policy.stopEnable[FaultKind.carrierLost.number.val] = false →
          exec (.catchFall pin) s = .next (recordedIn lost .carrierLost (context k c))) ∧
        (s.faults.policy.stopEnable[FaultKind.carrierLost.number.val] = true →
          ∃ t r, exec (.catchFall pin) s = .next t ∧ abortedFrom lost t ∧ t.link = s.link ∧
            recordsKept s t [.carrierLost, .encoder] ∧
            t.faults.records[FaultKind.carrierLost.number] = some r ∧ r.stopped = true ∧
            (s.faults.records[FaultKind.carrierLost.number] = none → r.context = context k c) ∧
            ((∀ (other : Fin 4) i' d', other ≠ pin → s.pins[other].state ≠ .holding c i' d') →
              t.carriers[c] = { s.carriers[c] with state := .lost })))) ∧
    (∀ k c n i d, s.engine.runState = .knitting → s.engine.course = some k →
      s.pins[pin].state = .catching c n i d →
      let due := n = 0 ∨ ∃ r, k.runs[i]? = some r ∧ pinAt s k pin r.release
      (due → ∃ t, exec (.carrierMissed pin) s = .next t ∧
        occurrenceTaken (withStatus (withPin s pin .up) k i .unfed) t .carrierMissed
          (context k c)) ∧
      (¬ due → exec (.carrierMissed pin) s = .next s)) ∧
    ((s.engine.runState ≠ .knitting ∨ s.engine.course = none ∨
        ∀ c n i d, s.pins[pin].state ≠ .catching c n i d) →
      exec (.carrierMissed pin) s = .next s)

/-- R128, R129, R142: Force Outputs in SETUP sets the force of a coil pair or of a pin and drives it; in every
other run state it is refused with STATE, and a system, bed or value out of range with RANGE (a pin's bed byte
is 0, log 21). Out of reset a coil output is driven from the pair's state and a pin output from its force, or
else from its record, each through its polarity, and never are both coils of a pair energised. -/
def Obligations.ForceOutputsTaken : Prop :=
  (∀ (tag target system bed value : Byte) (s : State), takesRequests s →
    let command := Instr.forceOutputs tag target system bed value
    let coil : Coil := if value.toNat = 0 then .off else if value.toNat = 1 then .knit else .tuck
    (s.engine.runState ≠ .setup → exec command s = .next (refusedWith s tag .state)) ∧
    (s.engine.runState = .setup →
      ((4 ≤ system.toNat ∨ s.geometry.systems ≤ system.toNat ∨
          ¬ ((target.toNat = 0 ∧ bed.toNat ≤ 1 ∧ value.toNat ≤ 2) ∨
            (target.toNat = 1 ∧ bed.toNat = 0 ∧ value.toNat ≤ 1))) →
        exec command s = .next (refusedWith s tag .range)) ∧
      ∀ sys : Fin 4, system.toNat = sys.val → sys.val < s.geometry.systems →
        (target.toNat = 0 → bed.toNat = 0 → value.toNat ≤ 2 → exec command s =
          .next (answeredWith s { s with
            front := s.front.set sys { s.front[sys] with force := some coil, coil := coil } }
            tag [])) ∧
        (target.toNat = 0 → bed.toNat = 1 → value.toNat ≤ 2 → exec command s =
          .next (answeredWith s { s with
            back := s.back.set sys { s.back[sys] with force := some coil, coil := coil } }
            tag [])) ∧
        (target.toNat = 1 → bed.toNat = 0 → value.toNat ≤ 1 → exec command s =
          .next (answeredWith s { s with
            pins := s.pins.set sys { s.pins[sys] with
              force := some (if value.toNat = 0 then .up else .down) } } tag [])))) ∧
  (∀ s : State, s.inReset = false → ∀ (bed : Bed) (sys : Fin 4),
    let k := (match bed with | .front => 0 | .back => 8) + 2 * sys.val
    coilLevel s bed sys false =
      (decide ((s.channel bed sys).coil = .knit) ^^ s.geometry.coilInverted.toList.getD k false) ∧
    coilLevel s bed sys true =
      (decide ((s.channel bed sys).coil = .tuck) ^^
        s.geometry.coilInverted.toList.getD (k + 1) false) ∧
    pinLevel s sys = ((match s.pins[sys].force with
      | some .down => true
      | some .up => false
      | none => decide (s.pins[sys].state ≠ .up)) ^^ s.geometry.pinInverted[sys]))

/-! ### The geometry record -/

/-- R111, R176, R177: the checks of Configure in their order, each refusal naming its field, and a Configure that
passes: every value at once, the tracker and the outputs of the systems put out of use with it, and the whole
record in the reply, with no mask before it (log 37). Nothing else changes. The reserved mask bits come first
(log 19). R175, R195: the 68 bytes of the record are its seventeen fields in the order of their numbers, two
bytes low byte first, the offsets indexed by system, bed and direction, and the polarities as bitmaps. -/
def Obligations.ConfigureTaken : Prop :=
  (∀ (tag : Byte) (p : ConfigurePayload) (s : State), takesRequests s →
    let refused := fun (code : ResultCode) (field : Byte) =>
      { s with link := answeredLink s.link tag code [field] }
    (s.engine.runState ≠ .setup → exec (.configure tag p) s = .next (refused .state 0)) ∧
    (s.engine.runState = .setup →
      (∀ n, ¬ fieldInRange p n → (∀ m, m < n → fieldInRange p m) →
        exec (.configure tag p) s = .next (refused .range (BitVec.ofNat 8 n))) ∧
      ((∀ n, fieldInRange p n) → ∃ g, resultsIn s.geometry p g ∧
        (g.bedWidth ≤ g.homeNeedle → exec (.configure tag p) s = .next (refused .range 4)) ∧
        (g.homeNeedle < g.bedWidth → g.clearLimit ≤ g.fastLimit →
          exec (.configure tag p) s = .next (refused .range 13)) ∧
        (g.homeNeedle < g.bedWidth → g.fastLimit < g.clearLimit →
          (strandsRecord s g.bedWidth → exec (.configure tag p) s = .next (refused .inUse 1)) ∧
          (¬ strandsRecord s g.bedWidth →
            (crowdsRail s g.clearance → exec (.configure tag p) s = .next (refused .inUse 11)) ∧
            (¬ crowdsRail s g.clearance → ∃ front back pins,
              exec (.configure tag p) s = .next (answeredWith s { s with
                geometry := g, tracker := retracked s.geometry g s.tracker
                front := front, back := back, pins := pins } tag (geometryBytes g)) ∧
              ∀ sys : Fin 4,
                (putOutOfUse s.geometry g sys →
                  front[sys] = { s.front[sys] with force := none, coil := .off } ∧
                  back[sys] = { s.back[sys] with force := none, coil := .off } ∧
                  pins[sys] = { s.pins[sys] with force := none }) ∧
                (¬ putOutOfUse s.geometry g sys → front[sys] = s.front[sys] ∧
                  back[sys] = s.back[sys] ∧ pins[sys] = s.pins[sys]))))))) ∧
  ∀ g : Geometry,
    let b := fun n => (geometryBytes g).getD n 0
    (geometryBytes g).length = 68 ∧ halfAt b 0 = BitVec.ofNat 16 g.bedWidth ∧
    b 2 = BitVec.ofNat 8 g.systems ∧ b 3 = BitVec.ofNat 8 g.pulses ∧
    halfAt b 4 = BitVec.ofNat 16 g.homeNeedle ∧ b 6 = BitVec.ofNat 8 g.homeTolerance ∧
    (∀ (sys : Fin 4) (bed : Bed) (d : Direction),
      let i := sys.val * 4 + (match bed with | .front => 0 | .back => 2) +
        (match d with | .right => 0 | .left => 1)
      halfAt b (7 + 2 * i) = BitVec.ofInt 16 (g.pointOffsetOf bed sys d)) ∧
    (∀ (sys : Fin 4) (d : Direction),
      let i := sys.val * 2 + (match d with | .right => 0 | .left => 1)
      halfAt b (39 + 2 * i) = BitVec.ofInt 16 (g.pinOffsetOf sys d)) ∧
    b 55 = BitVec.ofNat 8 g.engageLead ∧ b 56 = BitVec.ofNat 8 g.catchWindow ∧
    b 57 = BitVec.ofNat 8 g.overshoot ∧ b 58 = BitVec.ofNat 8 g.clearance ∧
    halfAt b 59 = BitVec.ofNat 16 g.fastLimit ∧ halfAt b 61 = BitVec.ofNat 16 g.clearLimit ∧
    b 63 = (match g.arbiterMode with | .alternating => 0 | .rotating => 1) ∧
    b 64 = BitVec.ofNat 8 g.urgency ∧
    (∀ i : Fin 16, (halfAt b 65).getLsbD i = g.coilInverted[i]) ∧
    (∀ i : Fin 4, (b 67).getLsbD i = g.pinInverted[i]) ∧ (b 67).extractLsb' 4 4 = 0#4

/-! ### Pattern arithmetic -/

/-- R1, R8, R9, R11, R12, R15 to R17, R20, R21: a column is the floor remainder of the offset from the anchor
needle, mirrored after it, and lies within the tile; its word lies in the tile's extent; and the decision of a
needle follows from its pixel, the entry's slot, the float limit and the float counter, or on the back bed from
the backing rule alone. A float counter below a limit above zero stays below it. -/
def Obligations.PatternArithmetic : Prop :=
  (∀ x y : Int, 0 < y → floorMod x y = x % y ∧ 0 ≤ floorMod x y ∧ floorMod x y < y) ∧
  (∀ (z : ZonePart) (t : Tile) (n : Nat), 0 < t.width → z.effective < t.width →
    let u := z.columnOf t n
    u < t.width ∧
    (z.given.mirror = false → (u : Int) = ((n : Int) - z.effective) % (t.width : Int)) ∧
    (z.given.mirror = true →
      (u : Int) = (t.width : Int) - 1 - ((n : Int) - z.effective) % (t.width : Int)) ∧
    z.columnOf t (n + t.width) = u ∧
    (z.given.row < t.height → inExtent t (z.wordOf t n) ∧
      z.wordOf t n = t.base + z.given.row * pitchOf t.width + u / 16 ∧
      16 * (z.wordOf t n - t.base - z.given.row * pitchOf t.width) + z.nibbleOf t n = u)) ∧
  (∀ (z : ZoneFields) (slot : Fin 8) (count : Nat) (v : BitVec 4),
    let m := z.map[v.toFin]
    let r := frontRuling z slot count v
    (m.slot = slot → r.origin = .pattern ∧ r.floatCount = 0 ∧
      r.decision = (match m.stitch with | .knit => .knit | .tuck => .tuck)) ∧
    (m.slot ≠ slot → z.floatLimit = 0 → r.decision = .miss ∧ r.origin = .pattern ∧
      r.floatCount = min (count + 1) 63) ∧
    (m.slot ≠ slot → 0 < z.floatLimit → count < z.floatLimit →
      (count + 1 = z.floatLimit → r.decision = .tuck ∧ r.origin = .tie ∧ r.floatCount = 0) ∧
      (count + 1 ≠ z.floatLimit → r.decision = .miss ∧ r.origin = .pattern ∧
        r.floatCount = count + 1) ∧ r.floatCount < z.floatLimit)) ∧
  (∀ (z : ZonePart) (e : Entry) (j b : Nat),
    (e.back = false → backDecision z e j b = .miss) ∧
    (e.back = true → backDecision z e j b = (match z.given.backing with
      | .none => .miss
      | .stripe => .knit
      | .birdseye => if (b + z.backingCounter.toNat + j) % 2 = 0 then .knit else .miss
      | .ladder => if (b + z.backingCounter.toNat + j) % z.given.colours = 0 then .knit
          else .miss)))

/-! ### Laws that every step keeps -/

/-- R23, R159, R160: every step keeps the canonical form of the pixel memory (log 5) and, by itself, the bounds of
the occurrence counts. -/
def Obligations.MemoryAndRecordLaws : Prop :=
  ∀ s t : State, step s = .next t → (memoryLaw s → memoryLaw t) ∧ (recordLaw s → recordLaw t)

/-- R69, R79, R81: a prepared plan stands in PREPARED alone and an active one in KNITTING alone, plans are queued
only behind one, at most four, and the directions alternate through the active or prepared plan and the
queue; and every zone that a prepared or active plan names has a current part. Every step keeps it. -/
def Obligations.PlanLaw : Prop := ∀ s t : State, step s = .next t → planLaw s → planLaw t

/-- R100, R101, R107, R175, R176: N, S, P and H0 stay in their ranges, the phase below P and the carriage position in
the position range. Every step keeps it. -/
def Obligations.PositionLaw : Prop :=
  ∀ s t : State, step s = .next t → positionLaw s → positionLaw t

/-- R25, R26, R27: every tile's extent stays in pixel memory and no two share a word; and the reference count of
a tile is the number of zone fields that name it. Every step keeps each of the two. -/
def Obligations.TileLaw : Prop := ∀ s t : State, step s = .next t →
  (tileLaw s → tileLaw t) ∧ (referenceLaw s → referenceLaw t)

/-- R43, R45, R46, R47, R53, R62, R64: a zone has a pending part, and a mark is pending, in PREPARED and KNITTING
alone; and no two zones' current ranges overlap, nor their projected ranges. Every step keeps it. In a part
that meets the laws every step keeps the fields of the zones in their ranges too: r below H, E below W, the
repeat index below m, the map's slots below k, and the served set never full. -/
def Obligations.ZoneLaw : Prop := ∀ s t : State, step s = .next t →
  (zoneLaw s → zoneLaw t) ∧ (laws s → partLaw t)

/-- R128, R130, R116: no decision queue grows over 48 (R122); outside KNITTING every coil pair is off but for a
force, and forces stand in SETUP alone; with no plan prepared or active every channel is idle. Every step keeps
each of the three. -/
def Obligations.ChannelLaws : Prop :=
  ∀ s t : State, step s = .next t →
    (queueLaw s → queueLaw t) ∧ (coilLaw s → coilLaw t) ∧ (idleLaw s → idleLaw t)

/-- R115, R117, R118, R119, R122, R123, R133: in a part that meets the laws every step keeps the channels in order:
the decisions of a queue are for needles one after another in pass order, inside the span and none of them
reached, and the next needle follows them; each state of a preparer says what it waits for; and the read in
flight of a front preparer is its fetch or stale. -/
def Obligations.QueueLaw : Prop :=
  ∀ s t : State, step s = .next t → laws s → orderLaw t ∧ preparerLaw t

/-- R84 to R86, R104, R142 to R152: in a part that meets the laws every step keeps what a prepared or active plan
stands on, and the pins and the carriers with it: outside KNITTING every pin is UP and no carrier is CARRIED;
in KNITTING a carrier is CARRIED exactly while one pin is HOLDING it, for an entry that is FED. -/
def Obligations.PinLaw : Prop :=
  ∀ s t : State, step s = .next t → laws s → courseLaw t ∧ pinLaw t

/-- R85, R136, R137: in a part that meets the laws every step keeps the RESTING carriers of each rail a clearance
apart, in the course of a plan too. -/
def Obligations.RailLaw : Prop := ∀ s t : State, step s = .next t → laws s → railLaw t

/-- R91, R97: the course number changes in two ways only: a step of the carriage in KNITTING that completes a
course adds one and sets COURSE_DONE, and a reset, the power-on or a Restart returns it to 0 in SETUP. -/
def Obligations.CourseNumberChanges : Prop :=
  ∀ s t : State, step s = .next t →
    t.engine.courseNumber = s.engine.courseNumber ∨
    (t.engine.courseNumber = s.engine.courseNumber + 1 ∧ t.faults.courseDone = true ∧
      s.engine.runState = .knitting ∧
      ∃ line home micros rest, s.pending = .encoderCount line home micros :: rest) ∨
    (t.engine.courseNumber = 0 ∧ t.engine.runState = .setup ∧
      ∃ c rest, s.pending = c :: rest ∧ startsAfresh c)

/-- R33, R138, R164, R183: what only some commands change: the geometry record, Configure in SETUP; the policy, Set
Policy; a tile's size and place, Define and Retire Tile; a yarn code, Install and Remove Carrier; pixel memory,
the completion of a store access, and not a Restart. A reset, the power-on and a Restart return the others to
their power-on values. -/
def Obligations.KeptByOtherCommands : Prop :=
  ∀ (s t : State) (c : Instr) (rest : List Instr), s.pending = c :: rest → step s = .next t →
    (t.geometry = s.geometry ∨ (s.engine.runState = .setup ∧ ∃ tag p, carries c (.configure tag p)) ∨
      (startsAfresh c ∧ t.geometry = Geometry.reset)) ∧
    (t.faults.policy = s.faults.policy ∨ (∃ tag flags, carries c (.setPolicy tag flags)) ∨
      (startsAfresh c ∧ t.faults.policy = Policy.reset)) ∧
    ((∀ i : Fin 64, t.store.tiles[i].map Tile.shape = s.store.tiles[i].map Tile.shape) ∨
      (∃ tag id w h b, carries c (.defineTile tag id w h b)) ∨
      (∃ tag id, carries c (.retireTile tag id)) ∨
      (startsAfresh c ∧ ∀ i : Fin 64, t.store.tiles[i] = none)) ∧
    ((∀ i : Fin 16, t.carriers[i].yarn = s.carriers[i].yarn) ∨
      (∃ tag id x y, carries c (.installCarrier tag id x y)) ∨
      (∃ tag id, carries c (.removeCarrier tag id)) ∨
      (startsAfresh c ∧ ∀ i : Fin 16, t.carriers[i].yarn = 0)) ∧
    (t.store.memory = s.store.memory ∨ (∃ u, c = .storeAccessComplete u) ∨ c = .reset ∨
      ∃ l, c = .powerOn l)
end
end

