-- ==== Sys2Proof/Laws/State.lean ====
section
/-! SUPPORT. What each update of State leaves: one lemma per field and update, true by definition, so that no
proof unfolds a record update. -/

namespace Sys2Proof.Machine

/-! ### withTracker -/

@[simp] theorem State.withTracker_inReset (s : State) (t : Tracker) :
    (s.withTracker t).inReset = s.inReset := rfl
@[simp] theorem State.withTracker_geometry (s : State) (t : Tracker) :
    (s.withTracker t).geometry = s.geometry := rfl
@[simp] theorem State.withTracker_tracker (s : State) (t : Tracker) :
    (s.withTracker t).tracker = t := rfl
@[simp] theorem State.withTracker_engine (s : State) (t : Tracker) :
    (s.withTracker t).engine = s.engine := rfl
@[simp] theorem State.withTracker_zones (s : State) (t : Tracker) :
    (s.withTracker t).zones = s.zones := rfl
@[simp] theorem State.withTracker_store (s : State) (t : Tracker) :
    (s.withTracker t).store = s.store := rfl
@[simp] theorem State.withTracker_front (s : State) (t : Tracker) :
    (s.withTracker t).front = s.front := rfl
@[simp] theorem State.withTracker_back (s : State) (t : Tracker) :
    (s.withTracker t).back = s.back := rfl
@[simp] theorem State.withTracker_carriers (s : State) (t : Tracker) :
    (s.withTracker t).carriers = s.carriers := rfl
@[simp] theorem State.withTracker_pins (s : State) (t : Tracker) :
    (s.withTracker t).pins = s.pins := rfl
@[simp] theorem State.withTracker_faults (s : State) (t : Tracker) :
    (s.withTracker t).faults = s.faults := rfl
@[simp] theorem State.withTracker_link (s : State) (t : Tracker) :
    (s.withTracker t).link = s.link := rfl
@[simp] theorem State.withTracker_freeCount (s : State) (t : Tracker) :
    (s.withTracker t).freeCount = s.freeCount := rfl
@[simp] theorem State.withTracker_pending (s : State) (t : Tracker) :
    (s.withTracker t).pending = s.pending := rfl

/-! ### withGeometry -/

@[simp] theorem State.withGeometry_inReset (s : State) (g : Geometry) :
    (s.withGeometry g).inReset = s.inReset := rfl
@[simp] theorem State.withGeometry_geometry (s : State) (g : Geometry) :
    (s.withGeometry g).geometry = g := rfl
@[simp] theorem State.withGeometry_tracker (s : State) (g : Geometry) :
    (s.withGeometry g).tracker = s.tracker := rfl
@[simp] theorem State.withGeometry_engine (s : State) (g : Geometry) :
    (s.withGeometry g).engine = s.engine := rfl
@[simp] theorem State.withGeometry_zones (s : State) (g : Geometry) :
    (s.withGeometry g).zones = s.zones := rfl
@[simp] theorem State.withGeometry_store (s : State) (g : Geometry) :
    (s.withGeometry g).store = s.store := rfl
@[simp] theorem State.withGeometry_front (s : State) (g : Geometry) :
    (s.withGeometry g).front = s.front := rfl
@[simp] theorem State.withGeometry_back (s : State) (g : Geometry) :
    (s.withGeometry g).back = s.back := rfl
@[simp] theorem State.withGeometry_carriers (s : State) (g : Geometry) :
    (s.withGeometry g).carriers = s.carriers := rfl
@[simp] theorem State.withGeometry_pins (s : State) (g : Geometry) :
    (s.withGeometry g).pins = s.pins := rfl
@[simp] theorem State.withGeometry_faults (s : State) (g : Geometry) :
    (s.withGeometry g).faults = s.faults := rfl
@[simp] theorem State.withGeometry_link (s : State) (g : Geometry) :
    (s.withGeometry g).link = s.link := rfl
@[simp] theorem State.withGeometry_freeCount (s : State) (g : Geometry) :
    (s.withGeometry g).freeCount = s.freeCount := rfl
@[simp] theorem State.withGeometry_pending (s : State) (g : Geometry) :
    (s.withGeometry g).pending = s.pending := rfl

/-! ### withEngine -/

@[simp] theorem State.withEngine_inReset (s : State) (e : Engine) :
    (s.withEngine e).inReset = s.inReset := rfl
@[simp] theorem State.withEngine_geometry (s : State) (e : Engine) :
    (s.withEngine e).geometry = s.geometry := rfl
@[simp] theorem State.withEngine_tracker (s : State) (e : Engine) :
    (s.withEngine e).tracker = s.tracker := rfl
@[simp] theorem State.withEngine_engine (s : State) (e : Engine) :
    (s.withEngine e).engine = e := rfl
@[simp] theorem State.withEngine_zones (s : State) (e : Engine) :
    (s.withEngine e).zones = s.zones := rfl
@[simp] theorem State.withEngine_store (s : State) (e : Engine) :
    (s.withEngine e).store = s.store := rfl
@[simp] theorem State.withEngine_front (s : State) (e : Engine) :
    (s.withEngine e).front = s.front := rfl
@[simp] theorem State.withEngine_back (s : State) (e : Engine) :
    (s.withEngine e).back = s.back := rfl
@[simp] theorem State.withEngine_carriers (s : State) (e : Engine) :
    (s.withEngine e).carriers = s.carriers := rfl
@[simp] theorem State.withEngine_pins (s : State) (e : Engine) :
    (s.withEngine e).pins = s.pins := rfl
@[simp] theorem State.withEngine_faults (s : State) (e : Engine) :
    (s.withEngine e).faults = s.faults := rfl
@[simp] theorem State.withEngine_link (s : State) (e : Engine) :
    (s.withEngine e).link = s.link := rfl
@[simp] theorem State.withEngine_freeCount (s : State) (e : Engine) :
    (s.withEngine e).freeCount = s.freeCount := rfl
@[simp] theorem State.withEngine_pending (s : State) (e : Engine) :
    (s.withEngine e).pending = s.pending := rfl

/-! ### withZones -/

@[simp] theorem State.withZones_inReset (s : State) (z : ZoneTable) :
    (s.withZones z).inReset = s.inReset := rfl
@[simp] theorem State.withZones_geometry (s : State) (z : ZoneTable) :
    (s.withZones z).geometry = s.geometry := rfl
@[simp] theorem State.withZones_tracker (s : State) (z : ZoneTable) :
    (s.withZones z).tracker = s.tracker := rfl
@[simp] theorem State.withZones_engine (s : State) (z : ZoneTable) :
    (s.withZones z).engine = s.engine := rfl
@[simp] theorem State.withZones_zones (s : State) (z : ZoneTable) : (s.withZones z).zones = z := rfl
@[simp] theorem State.withZones_store (s : State) (z : ZoneTable) :
    (s.withZones z).store = s.store := rfl
@[simp] theorem State.withZones_front (s : State) (z : ZoneTable) :
    (s.withZones z).front = s.front := rfl
@[simp] theorem State.withZones_back (s : State) (z : ZoneTable) :
    (s.withZones z).back = s.back := rfl
@[simp] theorem State.withZones_carriers (s : State) (z : ZoneTable) :
    (s.withZones z).carriers = s.carriers := rfl
@[simp] theorem State.withZones_pins (s : State) (z : ZoneTable) :
    (s.withZones z).pins = s.pins := rfl
@[simp] theorem State.withZones_faults (s : State) (z : ZoneTable) :
    (s.withZones z).faults = s.faults := rfl
@[simp] theorem State.withZones_link (s : State) (z : ZoneTable) :
    (s.withZones z).link = s.link := rfl
@[simp] theorem State.withZones_freeCount (s : State) (z : ZoneTable) :
    (s.withZones z).freeCount = s.freeCount := rfl
@[simp] theorem State.withZones_pending (s : State) (z : ZoneTable) :
    (s.withZones z).pending = s.pending := rfl

/-! ### withStore -/

@[simp] theorem State.withStore_inReset (s : State) (t : TileStore) :
    (s.withStore t).inReset = s.inReset := rfl
@[simp] theorem State.withStore_geometry (s : State) (t : TileStore) :
    (s.withStore t).geometry = s.geometry := rfl
@[simp] theorem State.withStore_tracker (s : State) (t : TileStore) :
    (s.withStore t).tracker = s.tracker := rfl
@[simp] theorem State.withStore_engine (s : State) (t : TileStore) :
    (s.withStore t).engine = s.engine := rfl
@[simp] theorem State.withStore_zones (s : State) (t : TileStore) :
    (s.withStore t).zones = s.zones := rfl
@[simp] theorem State.withStore_store (s : State) (t : TileStore) : (s.withStore t).store = t := rfl
@[simp] theorem State.withStore_front (s : State) (t : TileStore) :
    (s.withStore t).front = s.front := rfl
@[simp] theorem State.withStore_back (s : State) (t : TileStore) :
    (s.withStore t).back = s.back := rfl
@[simp] theorem State.withStore_carriers (s : State) (t : TileStore) :
    (s.withStore t).carriers = s.carriers := rfl
@[simp] theorem State.withStore_pins (s : State) (t : TileStore) :
    (s.withStore t).pins = s.pins := rfl
@[simp] theorem State.withStore_faults (s : State) (t : TileStore) :
    (s.withStore t).faults = s.faults := rfl
@[simp] theorem State.withStore_link (s : State) (t : TileStore) :
    (s.withStore t).link = s.link := rfl
@[simp] theorem State.withStore_freeCount (s : State) (t : TileStore) :
    (s.withStore t).freeCount = s.freeCount := rfl
@[simp] theorem State.withStore_pending (s : State) (t : TileStore) :
    (s.withStore t).pending = s.pending := rfl

/-! ### withFront -/

@[simp] theorem State.withFront_inReset (s : State) (v : Vector Channel 4) :
    (s.withFront v).inReset = s.inReset := rfl
@[simp] theorem State.withFront_geometry (s : State) (v : Vector Channel 4) :
    (s.withFront v).geometry = s.geometry := rfl
@[simp] theorem State.withFront_tracker (s : State) (v : Vector Channel 4) :
    (s.withFront v).tracker = s.tracker := rfl
@[simp] theorem State.withFront_engine (s : State) (v : Vector Channel 4) :
    (s.withFront v).engine = s.engine := rfl
@[simp] theorem State.withFront_zones (s : State) (v : Vector Channel 4) :
    (s.withFront v).zones = s.zones := rfl
@[simp] theorem State.withFront_store (s : State) (v : Vector Channel 4) :
    (s.withFront v).store = s.store := rfl
@[simp] theorem State.withFront_front (s : State) (v : Vector Channel 4) :
    (s.withFront v).front = v := rfl
@[simp] theorem State.withFront_back (s : State) (v : Vector Channel 4) :
    (s.withFront v).back = s.back := rfl
@[simp] theorem State.withFront_carriers (s : State) (v : Vector Channel 4) :
    (s.withFront v).carriers = s.carriers := rfl
@[simp] theorem State.withFront_pins (s : State) (v : Vector Channel 4) :
    (s.withFront v).pins = s.pins := rfl
@[simp] theorem State.withFront_faults (s : State) (v : Vector Channel 4) :
    (s.withFront v).faults = s.faults := rfl
@[simp] theorem State.withFront_link (s : State) (v : Vector Channel 4) :
    (s.withFront v).link = s.link := rfl
@[simp] theorem State.withFront_freeCount (s : State) (v : Vector Channel 4) :
    (s.withFront v).freeCount = s.freeCount := rfl
@[simp] theorem State.withFront_pending (s : State) (v : Vector Channel 4) :
    (s.withFront v).pending = s.pending := rfl

/-! ### withBack -/

@[simp] theorem State.withBack_inReset (s : State) (v : Vector Channel 4) :
    (s.withBack v).inReset = s.inReset := rfl
@[simp] theorem State.withBack_geometry (s : State) (v : Vector Channel 4) :
    (s.withBack v).geometry = s.geometry := rfl
@[simp] theorem State.withBack_tracker (s : State) (v : Vector Channel 4) :
    (s.withBack v).tracker = s.tracker := rfl
@[simp] theorem State.withBack_engine (s : State) (v : Vector Channel 4) :
    (s.withBack v).engine = s.engine := rfl
@[simp] theorem State.withBack_zones (s : State) (v : Vector Channel 4) :
    (s.withBack v).zones = s.zones := rfl
@[simp] theorem State.withBack_store (s : State) (v : Vector Channel 4) :
    (s.withBack v).store = s.store := rfl
@[simp] theorem State.withBack_front (s : State) (v : Vector Channel 4) :
    (s.withBack v).front = s.front := rfl
@[simp] theorem State.withBack_back (s : State) (v : Vector Channel 4) :
    (s.withBack v).back = v := rfl
@[simp] theorem State.withBack_carriers (s : State) (v : Vector Channel 4) :
    (s.withBack v).carriers = s.carriers := rfl
@[simp] theorem State.withBack_pins (s : State) (v : Vector Channel 4) :
    (s.withBack v).pins = s.pins := rfl
@[simp] theorem State.withBack_faults (s : State) (v : Vector Channel 4) :
    (s.withBack v).faults = s.faults := rfl
@[simp] theorem State.withBack_link (s : State) (v : Vector Channel 4) :
    (s.withBack v).link = s.link := rfl
@[simp] theorem State.withBack_freeCount (s : State) (v : Vector Channel 4) :
    (s.withBack v).freeCount = s.freeCount := rfl
@[simp] theorem State.withBack_pending (s : State) (v : Vector Channel 4) :
    (s.withBack v).pending = s.pending := rfl

/-! ### withCarriers -/

@[simp] theorem State.withCarriers_inReset (s : State) (v : Vector Carrier 16) :
    (s.withCarriers v).inReset = s.inReset := rfl
@[simp] theorem State.withCarriers_geometry (s : State) (v : Vector Carrier 16) :
    (s.withCarriers v).geometry = s.geometry := rfl
@[simp] theorem State.withCarriers_tracker (s : State) (v : Vector Carrier 16) :
    (s.withCarriers v).tracker = s.tracker := rfl
@[simp] theorem State.withCarriers_engine (s : State) (v : Vector Carrier 16) :
    (s.withCarriers v).engine = s.engine := rfl
@[simp] theorem State.withCarriers_zones (s : State) (v : Vector Carrier 16) :
    (s.withCarriers v).zones = s.zones := rfl
@[simp] theorem State.withCarriers_store (s : State) (v : Vector Carrier 16) :
    (s.withCarriers v).store = s.store := rfl
@[simp] theorem State.withCarriers_front (s : State) (v : Vector Carrier 16) :
    (s.withCarriers v).front = s.front := rfl
@[simp] theorem State.withCarriers_back (s : State) (v : Vector Carrier 16) :
    (s.withCarriers v).back = s.back := rfl
@[simp] theorem State.withCarriers_carriers (s : State) (v : Vector Carrier 16) :
    (s.withCarriers v).carriers = v := rfl
@[simp] theorem State.withCarriers_pins (s : State) (v : Vector Carrier 16) :
    (s.withCarriers v).pins = s.pins := rfl
@[simp] theorem State.withCarriers_faults (s : State) (v : Vector Carrier 16) :
    (s.withCarriers v).faults = s.faults := rfl
@[simp] theorem State.withCarriers_link (s : State) (v : Vector Carrier 16) :
    (s.withCarriers v).link = s.link := rfl
@[simp] theorem State.withCarriers_freeCount (s : State) (v : Vector Carrier 16) :
    (s.withCarriers v).freeCount = s.freeCount := rfl
@[simp] theorem State.withCarriers_pending (s : State) (v : Vector Carrier 16) :
    (s.withCarriers v).pending = s.pending := rfl

/-! ### withPins -/

@[simp] theorem State.withPins_inReset (s : State) (v : Vector Pin 4) :
    (s.withPins v).inReset = s.inReset := rfl
@[simp] theorem State.withPins_geometry (s : State) (v : Vector Pin 4) :
    (s.withPins v).geometry = s.geometry := rfl
@[simp] theorem State.withPins_tracker (s : State) (v : Vector Pin 4) :
    (s.withPins v).tracker = s.tracker := rfl
@[simp] theorem State.withPins_engine (s : State) (v : Vector Pin 4) :
    (s.withPins v).engine = s.engine := rfl
@[simp] theorem State.withPins_zones (s : State) (v : Vector Pin 4) :
    (s.withPins v).zones = s.zones := rfl
@[simp] theorem State.withPins_store (s : State) (v : Vector Pin 4) :
    (s.withPins v).store = s.store := rfl
@[simp] theorem State.withPins_front (s : State) (v : Vector Pin 4) :
    (s.withPins v).front = s.front := rfl
@[simp] theorem State.withPins_back (s : State) (v : Vector Pin 4) :
    (s.withPins v).back = s.back := rfl
@[simp] theorem State.withPins_carriers (s : State) (v : Vector Pin 4) :
    (s.withPins v).carriers = s.carriers := rfl
@[simp] theorem State.withPins_pins (s : State) (v : Vector Pin 4) : (s.withPins v).pins = v := rfl
@[simp] theorem State.withPins_faults (s : State) (v : Vector Pin 4) :
    (s.withPins v).faults = s.faults := rfl
@[simp] theorem State.withPins_link (s : State) (v : Vector Pin 4) :
    (s.withPins v).link = s.link := rfl
@[simp] theorem State.withPins_freeCount (s : State) (v : Vector Pin 4) :
    (s.withPins v).freeCount = s.freeCount := rfl
@[simp] theorem State.withPins_pending (s : State) (v : Vector Pin 4) :
    (s.withPins v).pending = s.pending := rfl

/-! ### withFaults -/

@[simp] theorem State.withFaults_inReset (s : State) (f : FaultBlock) :
    (s.withFaults f).inReset = s.inReset := rfl
@[simp] theorem State.withFaults_geometry (s : State) (f : FaultBlock) :
    (s.withFaults f).geometry = s.geometry := rfl
@[simp] theorem State.withFaults_tracker (s : State) (f : FaultBlock) :
    (s.withFaults f).tracker = s.tracker := rfl
@[simp] theorem State.withFaults_engine (s : State) (f : FaultBlock) :
    (s.withFaults f).engine = s.engine := rfl
@[simp] theorem State.withFaults_zones (s : State) (f : FaultBlock) :
    (s.withFaults f).zones = s.zones := rfl
@[simp] theorem State.withFaults_store (s : State) (f : FaultBlock) :
    (s.withFaults f).store = s.store := rfl
@[simp] theorem State.withFaults_front (s : State) (f : FaultBlock) :
    (s.withFaults f).front = s.front := rfl
@[simp] theorem State.withFaults_back (s : State) (f : FaultBlock) :
    (s.withFaults f).back = s.back := rfl
@[simp] theorem State.withFaults_carriers (s : State) (f : FaultBlock) :
    (s.withFaults f).carriers = s.carriers := rfl
@[simp] theorem State.withFaults_pins (s : State) (f : FaultBlock) :
    (s.withFaults f).pins = s.pins := rfl
@[simp] theorem State.withFaults_faults (s : State) (f : FaultBlock) :
    (s.withFaults f).faults = f := rfl
@[simp] theorem State.withFaults_link (s : State) (f : FaultBlock) :
    (s.withFaults f).link = s.link := rfl
@[simp] theorem State.withFaults_freeCount (s : State) (f : FaultBlock) :
    (s.withFaults f).freeCount = s.freeCount := rfl
@[simp] theorem State.withFaults_pending (s : State) (f : FaultBlock) :
    (s.withFaults f).pending = s.pending := rfl

/-! ### withLink -/

@[simp] theorem State.withLink_inReset (s : State) (l : Link) :
    (s.withLink l).inReset = s.inReset := rfl
@[simp] theorem State.withLink_geometry (s : State) (l : Link) :
    (s.withLink l).geometry = s.geometry := rfl
@[simp] theorem State.withLink_tracker (s : State) (l : Link) :
    (s.withLink l).tracker = s.tracker := rfl
@[simp] theorem State.withLink_engine (s : State) (l : Link) :
    (s.withLink l).engine = s.engine := rfl
@[simp] theorem State.withLink_zones (s : State) (l : Link) : (s.withLink l).zones = s.zones := rfl
@[simp] theorem State.withLink_store (s : State) (l : Link) : (s.withLink l).store = s.store := rfl
@[simp] theorem State.withLink_front (s : State) (l : Link) : (s.withLink l).front = s.front := rfl
@[simp] theorem State.withLink_back (s : State) (l : Link) : (s.withLink l).back = s.back := rfl
@[simp] theorem State.withLink_carriers (s : State) (l : Link) :
    (s.withLink l).carriers = s.carriers := rfl
@[simp] theorem State.withLink_pins (s : State) (l : Link) : (s.withLink l).pins = s.pins := rfl
@[simp] theorem State.withLink_faults (s : State) (l : Link) :
    (s.withLink l).faults = s.faults := rfl
@[simp] theorem State.withLink_link (s : State) (l : Link) : (s.withLink l).link = l := rfl
@[simp] theorem State.withLink_freeCount (s : State) (l : Link) :
    (s.withLink l).freeCount = s.freeCount := rfl
@[simp] theorem State.withLink_pending (s : State) (l : Link) :
    (s.withLink l).pending = s.pending := rfl

/-! ### bumpFree -/

@[simp] theorem State.bumpFree_inReset (s : State) : s.bumpFree.inReset = s.inReset := rfl
@[simp] theorem State.bumpFree_geometry (s : State) : s.bumpFree.geometry = s.geometry := rfl
@[simp] theorem State.bumpFree_tracker (s : State) : s.bumpFree.tracker = s.tracker := rfl
@[simp] theorem State.bumpFree_engine (s : State) : s.bumpFree.engine = s.engine := rfl
@[simp] theorem State.bumpFree_zones (s : State) : s.bumpFree.zones = s.zones := rfl
@[simp] theorem State.bumpFree_store (s : State) : s.bumpFree.store = s.store := rfl
@[simp] theorem State.bumpFree_front (s : State) : s.bumpFree.front = s.front := rfl
@[simp] theorem State.bumpFree_back (s : State) : s.bumpFree.back = s.back := rfl
@[simp] theorem State.bumpFree_carriers (s : State) : s.bumpFree.carriers = s.carriers := rfl
@[simp] theorem State.bumpFree_pins (s : State) : s.bumpFree.pins = s.pins := rfl
@[simp] theorem State.bumpFree_faults (s : State) : s.bumpFree.faults = s.faults := rfl
@[simp] theorem State.bumpFree_link (s : State) : s.bumpFree.link = s.link := rfl
@[simp] theorem State.bumpFree_freeCount (s : State) : s.bumpFree.freeCount = s.freeCount + 1 := rfl
@[simp] theorem State.bumpFree_pending (s : State) : s.bumpFree.pending = s.pending := rfl

/-! ### withPending -/

@[simp] theorem State.withPending_inReset (s : State) (q : List Instr) :
    (s.withPending q).inReset = s.inReset := rfl
@[simp] theorem State.withPending_geometry (s : State) (q : List Instr) :
    (s.withPending q).geometry = s.geometry := rfl
@[simp] theorem State.withPending_tracker (s : State) (q : List Instr) :
    (s.withPending q).tracker = s.tracker := rfl
@[simp] theorem State.withPending_engine (s : State) (q : List Instr) :
    (s.withPending q).engine = s.engine := rfl
@[simp] theorem State.withPending_zones (s : State) (q : List Instr) :
    (s.withPending q).zones = s.zones := rfl
@[simp] theorem State.withPending_store (s : State) (q : List Instr) :
    (s.withPending q).store = s.store := rfl
@[simp] theorem State.withPending_front (s : State) (q : List Instr) :
    (s.withPending q).front = s.front := rfl
@[simp] theorem State.withPending_back (s : State) (q : List Instr) :
    (s.withPending q).back = s.back := rfl
@[simp] theorem State.withPending_carriers (s : State) (q : List Instr) :
    (s.withPending q).carriers = s.carriers := rfl
@[simp] theorem State.withPending_pins (s : State) (q : List Instr) :
    (s.withPending q).pins = s.pins := rfl
@[simp] theorem State.withPending_faults (s : State) (q : List Instr) :
    (s.withPending q).faults = s.faults := rfl
@[simp] theorem State.withPending_link (s : State) (q : List Instr) :
    (s.withPending q).link = s.link := rfl
@[simp] theorem State.withPending_freeCount (s : State) (q : List Instr) :
    (s.withPending q).freeCount = s.freeCount := rfl
@[simp] theorem State.withPending_pending (s : State) (q : List Instr) :
    (s.withPending q).pending = q := rfl

end Sys2Proof.Machine
end

