-- ==== Sys2Proof/Laws/Frames.lean ====
section
/-! SUPPORT. What each shared operation of Ops.lean leaves as it stood: one lemma per operation and field, so
that no proof about a meaning unfolds the operation. -/

namespace Sys2Proof.Machine

set_option Elab.async false

/-! ### Folds -/

/-- A fold keeps what each of its steps keeps. -/
theorem foldl_keeps {α β σ : Type} (P : σ → β) {f : σ → α → σ} (h : ∀ s a, P (f s a) = P s)
    (l : List α) (s : σ) : P (l.foldl f s) = P s := by
  induction l generalizing s with
  | nil => rfl
  | cons a l ih => rw [List.foldl_cons, ih, h]

/-- A fold that also gathers occurrences keeps what each of its steps keeps. -/
theorem foldl_pair_keeps {α β σ ρ : Type} (P : σ → β) {f : σ → α → σ × List ρ}
    (h : ∀ s a, P (f s a).1 = P s) (l : List α) (p : σ × List ρ) :
    P (l.foldl (fun p a => ((f p.1 a).1, p.2 ++ (f p.1 a).2)) p).1 = P p.1 :=
  foldl_keeps (f := fun p a => ((f p.1 a).1, p.2 ++ (f p.1 a).2)) (fun p : σ × List ρ => P p.1)
    (fun p a => h p.1 a) l p

/-! ### setTile -/

@[simp] theorem setTile_inReset (s : State) (i : Fin 64) (t : Option Tile) :
    (setTile s i t).inReset = s.inReset :=
  rfl
@[simp] theorem setTile_geometry (s : State) (i : Fin 64) (t : Option Tile) :
    (setTile s i t).geometry = s.geometry :=
  rfl
@[simp] theorem setTile_tracker (s : State) (i : Fin 64) (t : Option Tile) :
    (setTile s i t).tracker = s.tracker :=
  rfl
@[simp] theorem setTile_engine (s : State) (i : Fin 64) (t : Option Tile) :
    (setTile s i t).engine = s.engine :=
  rfl
@[simp] theorem setTile_zones (s : State) (i : Fin 64) (t : Option Tile) :
    (setTile s i t).zones = s.zones :=
  rfl
@[simp] theorem setTile_front (s : State) (i : Fin 64) (t : Option Tile) :
    (setTile s i t).front = s.front :=
  rfl
@[simp] theorem setTile_back (s : State) (i : Fin 64) (t : Option Tile) :
    (setTile s i t).back = s.back :=
  rfl
@[simp] theorem setTile_carriers (s : State) (i : Fin 64) (t : Option Tile) :
    (setTile s i t).carriers = s.carriers :=
  rfl
@[simp] theorem setTile_pins (s : State) (i : Fin 64) (t : Option Tile) :
    (setTile s i t).pins = s.pins :=
  rfl
@[simp] theorem setTile_faults (s : State) (i : Fin 64) (t : Option Tile) :
    (setTile s i t).faults = s.faults :=
  rfl
@[simp] theorem setTile_link (s : State) (i : Fin 64) (t : Option Tile) :
    (setTile s i t).link = s.link :=
  rfl
@[simp] theorem setTile_freeCount (s : State) (i : Fin 64) (t : Option Tile) :
    (setTile s i t).freeCount = s.freeCount :=
  rfl
@[simp] theorem setTile_pending (s : State) (i : Fin 64) (t : Option Tile) :
    (setTile s i t).pending = s.pending :=
  rfl
@[simp] theorem setTile_store_memory (s : State) (i : Fin 64) (t : Option Tile) :
    (setTile s i t).store.memory = s.store.memory :=
  rfl
@[simp] theorem setTile_store_cursor (s : State) (i : Fin 64) (t : Option Tile) :
    (setTile s i t).store.cursor = s.store.cursor :=
  rfl
@[simp] theorem setTile_store_buffer (s : State) (i : Fin 64) (t : Option Tile) :
    (setTile s i t).store.buffer = s.store.buffer :=
  rfl
@[simp] theorem setTile_store_inFlight (s : State) (i : Fin 64) (t : Option Tile) :
    (setTile s i t).store.inFlight = s.store.inFlight :=
  rfl
@[simp] theorem setTile_store_lastGranted (s : State) (i : Fin 64) (t : Option Tile) :
    (setTile s i t).store.lastGranted = s.store.lastGranted :=
  rfl
@[simp] theorem setTile_store_lastPreparer (s : State) (i : Fin 64) (t : Option Tile) :
    (setTile s i t).store.lastPreparer = s.store.lastPreparer :=
  rfl

/-! ### setZone -/

@[simp] theorem setZone_inReset (s : State) (i : Fin 32) (z : Option Zone) :
    (setZone s i z).inReset = s.inReset :=
  rfl
@[simp] theorem setZone_geometry (s : State) (i : Fin 32) (z : Option Zone) :
    (setZone s i z).geometry = s.geometry :=
  rfl
@[simp] theorem setZone_tracker (s : State) (i : Fin 32) (z : Option Zone) :
    (setZone s i z).tracker = s.tracker :=
  rfl
@[simp] theorem setZone_engine (s : State) (i : Fin 32) (z : Option Zone) :
    (setZone s i z).engine = s.engine :=
  rfl
@[simp] theorem setZone_store (s : State) (i : Fin 32) (z : Option Zone) :
    (setZone s i z).store = s.store :=
  rfl
@[simp] theorem setZone_front (s : State) (i : Fin 32) (z : Option Zone) :
    (setZone s i z).front = s.front :=
  rfl
@[simp] theorem setZone_back (s : State) (i : Fin 32) (z : Option Zone) :
    (setZone s i z).back = s.back :=
  rfl
@[simp] theorem setZone_carriers (s : State) (i : Fin 32) (z : Option Zone) :
    (setZone s i z).carriers = s.carriers :=
  rfl
@[simp] theorem setZone_pins (s : State) (i : Fin 32) (z : Option Zone) :
    (setZone s i z).pins = s.pins :=
  rfl
@[simp] theorem setZone_faults (s : State) (i : Fin 32) (z : Option Zone) :
    (setZone s i z).faults = s.faults :=
  rfl
@[simp] theorem setZone_link (s : State) (i : Fin 32) (z : Option Zone) :
    (setZone s i z).link = s.link :=
  rfl
@[simp] theorem setZone_freeCount (s : State) (i : Fin 32) (z : Option Zone) :
    (setZone s i z).freeCount = s.freeCount :=
  rfl
@[simp] theorem setZone_pending (s : State) (i : Fin 32) (z : Option Zone) :
    (setZone s i z).pending = s.pending :=
  rfl
@[simp] theorem setZone_zones_pendingMark (s : State) (i : Fin 32) (z : Option Zone) :
    (setZone s i z).zones.pendingMark = s.zones.pendingMark :=
  rfl
@[simp] theorem setZone_zones_lastMark (s : State) (i : Fin 32) (z : Option Zone) :
    (setZone s i z).zones.lastMark = s.zones.lastMark :=
  rfl

/-! ### setCarrierState -/

@[simp] theorem setCarrierState_inReset (s : State) (i : Fin 16) (c : CarrierState) :
    (setCarrierState s i c).inReset = s.inReset :=
  rfl
@[simp] theorem setCarrierState_geometry (s : State) (i : Fin 16) (c : CarrierState) :
    (setCarrierState s i c).geometry = s.geometry :=
  rfl
@[simp] theorem setCarrierState_tracker (s : State) (i : Fin 16) (c : CarrierState) :
    (setCarrierState s i c).tracker = s.tracker :=
  rfl
@[simp] theorem setCarrierState_engine (s : State) (i : Fin 16) (c : CarrierState) :
    (setCarrierState s i c).engine = s.engine :=
  rfl
@[simp] theorem setCarrierState_zones (s : State) (i : Fin 16) (c : CarrierState) :
    (setCarrierState s i c).zones = s.zones :=
  rfl
@[simp] theorem setCarrierState_store (s : State) (i : Fin 16) (c : CarrierState) :
    (setCarrierState s i c).store = s.store :=
  rfl
@[simp] theorem setCarrierState_front (s : State) (i : Fin 16) (c : CarrierState) :
    (setCarrierState s i c).front = s.front :=
  rfl
@[simp] theorem setCarrierState_back (s : State) (i : Fin 16) (c : CarrierState) :
    (setCarrierState s i c).back = s.back :=
  rfl
@[simp] theorem setCarrierState_pins (s : State) (i : Fin 16) (c : CarrierState) :
    (setCarrierState s i c).pins = s.pins :=
  rfl
@[simp] theorem setCarrierState_faults (s : State) (i : Fin 16) (c : CarrierState) :
    (setCarrierState s i c).faults = s.faults :=
  rfl
@[simp] theorem setCarrierState_link (s : State) (i : Fin 16) (c : CarrierState) :
    (setCarrierState s i c).link = s.link :=
  rfl
@[simp] theorem setCarrierState_freeCount (s : State) (i : Fin 16) (c : CarrierState) :
    (setCarrierState s i c).freeCount = s.freeCount :=
  rfl
@[simp] theorem setCarrierState_pending (s : State) (i : Fin 16) (c : CarrierState) :
    (setCarrierState s i c).pending = s.pending :=
  rfl

/-! ### setPinState -/

@[simp] theorem setPinState_inReset (s : State) (i : Fin 4) (p : PinState) :
    (setPinState s i p).inReset = s.inReset :=
  rfl
@[simp] theorem setPinState_geometry (s : State) (i : Fin 4) (p : PinState) :
    (setPinState s i p).geometry = s.geometry :=
  rfl
@[simp] theorem setPinState_tracker (s : State) (i : Fin 4) (p : PinState) :
    (setPinState s i p).tracker = s.tracker :=
  rfl
@[simp] theorem setPinState_engine (s : State) (i : Fin 4) (p : PinState) :
    (setPinState s i p).engine = s.engine :=
  rfl
@[simp] theorem setPinState_zones (s : State) (i : Fin 4) (p : PinState) :
    (setPinState s i p).zones = s.zones :=
  rfl
@[simp] theorem setPinState_store (s : State) (i : Fin 4) (p : PinState) :
    (setPinState s i p).store = s.store :=
  rfl
@[simp] theorem setPinState_front (s : State) (i : Fin 4) (p : PinState) :
    (setPinState s i p).front = s.front :=
  rfl
@[simp] theorem setPinState_back (s : State) (i : Fin 4) (p : PinState) :
    (setPinState s i p).back = s.back :=
  rfl
@[simp] theorem setPinState_carriers (s : State) (i : Fin 4) (p : PinState) :
    (setPinState s i p).carriers = s.carriers :=
  rfl
@[simp] theorem setPinState_faults (s : State) (i : Fin 4) (p : PinState) :
    (setPinState s i p).faults = s.faults :=
  rfl
@[simp] theorem setPinState_link (s : State) (i : Fin 4) (p : PinState) :
    (setPinState s i p).link = s.link :=
  rfl
@[simp] theorem setPinState_freeCount (s : State) (i : Fin 4) (p : PinState) :
    (setPinState s i p).freeCount = s.freeCount :=
  rfl
@[simp] theorem setPinState_pending (s : State) (i : Fin 4) (p : PinState) :
    (setPinState s i p).pending = s.pending :=
  rfl

/-! ### setChannel -/

@[simp] theorem setChannel_inReset (s : State) (bed : Bed) (sys : Fin 4) (ch : Channel) :
    (setChannel s bed sys ch).inReset = s.inReset :=
  by cases bed <;> rfl
@[simp] theorem setChannel_geometry (s : State) (bed : Bed) (sys : Fin 4) (ch : Channel) :
    (setChannel s bed sys ch).geometry = s.geometry :=
  by cases bed <;> rfl
@[simp] theorem setChannel_tracker (s : State) (bed : Bed) (sys : Fin 4) (ch : Channel) :
    (setChannel s bed sys ch).tracker = s.tracker :=
  by cases bed <;> rfl
@[simp] theorem setChannel_engine (s : State) (bed : Bed) (sys : Fin 4) (ch : Channel) :
    (setChannel s bed sys ch).engine = s.engine :=
  by cases bed <;> rfl
@[simp] theorem setChannel_zones (s : State) (bed : Bed) (sys : Fin 4) (ch : Channel) :
    (setChannel s bed sys ch).zones = s.zones :=
  by cases bed <;> rfl
@[simp] theorem setChannel_store (s : State) (bed : Bed) (sys : Fin 4) (ch : Channel) :
    (setChannel s bed sys ch).store = s.store :=
  by cases bed <;> rfl
@[simp] theorem setChannel_carriers (s : State) (bed : Bed) (sys : Fin 4) (ch : Channel) :
    (setChannel s bed sys ch).carriers = s.carriers :=
  by cases bed <;> rfl
@[simp] theorem setChannel_pins (s : State) (bed : Bed) (sys : Fin 4) (ch : Channel) :
    (setChannel s bed sys ch).pins = s.pins :=
  by cases bed <;> rfl
@[simp] theorem setChannel_faults (s : State) (bed : Bed) (sys : Fin 4) (ch : Channel) :
    (setChannel s bed sys ch).faults = s.faults :=
  by cases bed <;> rfl
@[simp] theorem setChannel_link (s : State) (bed : Bed) (sys : Fin 4) (ch : Channel) :
    (setChannel s bed sys ch).link = s.link :=
  by cases bed <;> rfl
@[simp] theorem setChannel_freeCount (s : State) (bed : Bed) (sys : Fin 4) (ch : Channel) :
    (setChannel s bed sys ch).freeCount = s.freeCount :=
  by cases bed <;> rfl
@[simp] theorem setChannel_pending (s : State) (bed : Bed) (sys : Fin 4) (ch : Channel) :
    (setChannel s bed sys ch).pending = s.pending :=
  by cases bed <;> rfl
@[simp] theorem setChannel_front_back (s : State) (sys : Fin 4) (ch : Channel) :
    (setChannel s .front sys ch).back = s.back := rfl
@[simp] theorem setChannel_back_front (s : State) (sys : Fin 4) (ch : Channel) :
    (setChannel s .back sys ch).front = s.front := rfl
@[simp] theorem setChannel_front_front (s : State) (sys : Fin 4) (ch : Channel) :
    (setChannel s .front sys ch).front = s.front.set sys ch := rfl
@[simp] theorem setChannel_back_back (s : State) (sys : Fin 4) (ch : Channel) :
    (setChannel s .back sys ch).back = s.back.set sys ch := rfl

/-! ### setRuns -/

@[simp] theorem setRuns_inReset (s : State) (runs : List EntryRun) :
    (setRuns s runs).inReset = s.inReset :=
  rfl
@[simp] theorem setRuns_geometry (s : State) (runs : List EntryRun) :
    (setRuns s runs).geometry = s.geometry :=
  rfl
@[simp] theorem setRuns_tracker (s : State) (runs : List EntryRun) :
    (setRuns s runs).tracker = s.tracker :=
  rfl
@[simp] theorem setRuns_zones (s : State) (runs : List EntryRun) :
    (setRuns s runs).zones = s.zones :=
  rfl
@[simp] theorem setRuns_store (s : State) (runs : List EntryRun) :
    (setRuns s runs).store = s.store :=
  rfl
@[simp] theorem setRuns_front (s : State) (runs : List EntryRun) :
    (setRuns s runs).front = s.front :=
  rfl
@[simp] theorem setRuns_back (s : State) (runs : List EntryRun) : (setRuns s runs).back = s.back :=
  rfl
@[simp] theorem setRuns_carriers (s : State) (runs : List EntryRun) :
    (setRuns s runs).carriers = s.carriers :=
  rfl
@[simp] theorem setRuns_pins (s : State) (runs : List EntryRun) : (setRuns s runs).pins = s.pins :=
  rfl
@[simp] theorem setRuns_faults (s : State) (runs : List EntryRun) :
    (setRuns s runs).faults = s.faults :=
  rfl
@[simp] theorem setRuns_link (s : State) (runs : List EntryRun) : (setRuns s runs).link = s.link :=
  rfl
@[simp] theorem setRuns_freeCount (s : State) (runs : List EntryRun) :
    (setRuns s runs).freeCount = s.freeCount :=
  rfl
@[simp] theorem setRuns_pending (s : State) (runs : List EntryRun) :
    (setRuns s runs).pending = s.pending :=
  rfl
@[simp] theorem setRuns_engine_runState (s : State) (runs : List EntryRun) :
    (setRuns s runs).engine.runState = s.engine.runState :=
  rfl
@[simp] theorem setRuns_engine_queue (s : State) (runs : List EntryRun) :
    (setRuns s runs).engine.queue = s.engine.queue :=
  rfl
@[simp] theorem setRuns_engine_expected (s : State) (runs : List EntryRun) :
    (setRuns s runs).engine.expected = s.engine.expected :=
  rfl
@[simp] theorem setRuns_engine_courseNumber (s : State) (runs : List EntryRun) :
    (setRuns s runs).engine.courseNumber = s.engine.courseNumber :=
  rfl

/-! ### setStatus -/

@[simp] theorem setStatus_inReset (s : State) (i : Nat) (st : EntryStatus) :
    (setStatus s i st).inReset = s.inReset :=
  by unfold setStatus; split <;> rfl
@[simp] theorem setStatus_geometry (s : State) (i : Nat) (st : EntryStatus) :
    (setStatus s i st).geometry = s.geometry :=
  by unfold setStatus; split <;> rfl
@[simp] theorem setStatus_tracker (s : State) (i : Nat) (st : EntryStatus) :
    (setStatus s i st).tracker = s.tracker :=
  by unfold setStatus; split <;> rfl
@[simp] theorem setStatus_zones (s : State) (i : Nat) (st : EntryStatus) :
    (setStatus s i st).zones = s.zones :=
  by unfold setStatus; split <;> rfl
@[simp] theorem setStatus_store (s : State) (i : Nat) (st : EntryStatus) :
    (setStatus s i st).store = s.store :=
  by unfold setStatus; split <;> rfl
@[simp] theorem setStatus_front (s : State) (i : Nat) (st : EntryStatus) :
    (setStatus s i st).front = s.front :=
  by unfold setStatus; split <;> rfl
@[simp] theorem setStatus_back (s : State) (i : Nat) (st : EntryStatus) :
    (setStatus s i st).back = s.back :=
  by unfold setStatus; split <;> rfl
@[simp] theorem setStatus_carriers (s : State) (i : Nat) (st : EntryStatus) :
    (setStatus s i st).carriers = s.carriers :=
  by unfold setStatus; split <;> rfl
@[simp] theorem setStatus_pins (s : State) (i : Nat) (st : EntryStatus) :
    (setStatus s i st).pins = s.pins :=
  by unfold setStatus; split <;> rfl
@[simp] theorem setStatus_faults (s : State) (i : Nat) (st : EntryStatus) :
    (setStatus s i st).faults = s.faults :=
  by unfold setStatus; split <;> rfl
@[simp] theorem setStatus_link (s : State) (i : Nat) (st : EntryStatus) :
    (setStatus s i st).link = s.link :=
  by unfold setStatus; split <;> rfl
@[simp] theorem setStatus_freeCount (s : State) (i : Nat) (st : EntryStatus) :
    (setStatus s i st).freeCount = s.freeCount :=
  by unfold setStatus; split <;> rfl
@[simp] theorem setStatus_pending (s : State) (i : Nat) (st : EntryStatus) :
    (setStatus s i st).pending = s.pending :=
  by unfold setStatus; split <;> rfl
@[simp] theorem setStatus_engine_runState (s : State) (i : Nat) (st : EntryStatus) :
    (setStatus s i st).engine.runState = s.engine.runState :=
  by unfold setStatus; split <;> rfl
@[simp] theorem setStatus_engine_queue (s : State) (i : Nat) (st : EntryStatus) :
    (setStatus s i st).engine.queue = s.engine.queue :=
  by unfold setStatus; split <;> rfl
@[simp] theorem setStatus_engine_expected (s : State) (i : Nat) (st : EntryStatus) :
    (setStatus s i st).engine.expected = s.engine.expected :=
  by unfold setStatus; split <;> rfl
@[simp] theorem setStatus_engine_courseNumber (s : State) (i : Nat) (st : EntryStatus) :
    (setStatus s i st).engine.courseNumber = s.engine.courseNumber :=
  by unfold setStatus; split <;> rfl

/-! ### addReference -/

@[simp] theorem addReference_inReset (s : State) (i : Fin 64) :
    (addReference s i).inReset = s.inReset :=
  by unfold addReference; split <;> rfl
@[simp] theorem addReference_geometry (s : State) (i : Fin 64) :
    (addReference s i).geometry = s.geometry :=
  by unfold addReference; split <;> rfl
@[simp] theorem addReference_tracker (s : State) (i : Fin 64) :
    (addReference s i).tracker = s.tracker :=
  by unfold addReference; split <;> rfl
@[simp] theorem addReference_engine (s : State) (i : Fin 64) :
    (addReference s i).engine = s.engine :=
  by unfold addReference; split <;> rfl
@[simp] theorem addReference_zones (s : State) (i : Fin 64) : (addReference s i).zones = s.zones :=
  by unfold addReference; split <;> rfl
@[simp] theorem addReference_front (s : State) (i : Fin 64) : (addReference s i).front = s.front :=
  by unfold addReference; split <;> rfl
@[simp] theorem addReference_back (s : State) (i : Fin 64) : (addReference s i).back = s.back :=
  by unfold addReference; split <;> rfl
@[simp] theorem addReference_carriers (s : State) (i : Fin 64) :
    (addReference s i).carriers = s.carriers :=
  by unfold addReference; split <;> rfl
@[simp] theorem addReference_pins (s : State) (i : Fin 64) : (addReference s i).pins = s.pins :=
  by unfold addReference; split <;> rfl
@[simp] theorem addReference_faults (s : State) (i : Fin 64) :
    (addReference s i).faults = s.faults :=
  by unfold addReference; split <;> rfl
@[simp] theorem addReference_link (s : State) (i : Fin 64) : (addReference s i).link = s.link :=
  by unfold addReference; split <;> rfl
@[simp] theorem addReference_freeCount (s : State) (i : Fin 64) :
    (addReference s i).freeCount = s.freeCount :=
  by unfold addReference; split <;> rfl
@[simp] theorem addReference_pending (s : State) (i : Fin 64) :
    (addReference s i).pending = s.pending :=
  by unfold addReference; split <;> rfl
@[simp] theorem addReference_store_memory (s : State) (i : Fin 64) :
    (addReference s i).store.memory = s.store.memory :=
  by unfold addReference; split <;> rfl
@[simp] theorem addReference_store_cursor (s : State) (i : Fin 64) :
    (addReference s i).store.cursor = s.store.cursor :=
  by unfold addReference; split <;> rfl
@[simp] theorem addReference_store_buffer (s : State) (i : Fin 64) :
    (addReference s i).store.buffer = s.store.buffer :=
  by unfold addReference; split <;> rfl
@[simp] theorem addReference_store_inFlight (s : State) (i : Fin 64) :
    (addReference s i).store.inFlight = s.store.inFlight :=
  by unfold addReference; split <;> rfl
@[simp] theorem addReference_store_lastGranted (s : State) (i : Fin 64) :
    (addReference s i).store.lastGranted = s.store.lastGranted :=
  by unfold addReference; split <;> rfl
@[simp] theorem addReference_store_lastPreparer (s : State) (i : Fin 64) :
    (addReference s i).store.lastPreparer = s.store.lastPreparer :=
  by unfold addReference; split <;> rfl

/-! ### dropReference -/

@[simp] theorem dropReference_inReset (s : State) (i : Fin 64) :
    (dropReference s i).inReset = s.inReset :=
  by unfold dropReference; split <;> rfl
@[simp] theorem dropReference_geometry (s : State) (i : Fin 64) :
    (dropReference s i).geometry = s.geometry :=
  by unfold dropReference; split <;> rfl
@[simp] theorem dropReference_tracker (s : State) (i : Fin 64) :
    (dropReference s i).tracker = s.tracker :=
  by unfold dropReference; split <;> rfl
@[simp] theorem dropReference_engine (s : State) (i : Fin 64) :
    (dropReference s i).engine = s.engine :=
  by unfold dropReference; split <;> rfl
@[simp] theorem dropReference_zones (s : State) (i : Fin 64) :
    (dropReference s i).zones = s.zones :=
  by unfold dropReference; split <;> rfl
@[simp] theorem dropReference_front (s : State) (i : Fin 64) :
    (dropReference s i).front = s.front :=
  by unfold dropReference; split <;> rfl
@[simp] theorem dropReference_back (s : State) (i : Fin 64) : (dropReference s i).back = s.back :=
  by unfold dropReference; split <;> rfl
@[simp] theorem dropReference_carriers (s : State) (i : Fin 64) :
    (dropReference s i).carriers = s.carriers :=
  by unfold dropReference; split <;> rfl
@[simp] theorem dropReference_pins (s : State) (i : Fin 64) : (dropReference s i).pins = s.pins :=
  by unfold dropReference; split <;> rfl
@[simp] theorem dropReference_faults (s : State) (i : Fin 64) :
    (dropReference s i).faults = s.faults :=
  by unfold dropReference; split <;> rfl
@[simp] theorem dropReference_link (s : State) (i : Fin 64) : (dropReference s i).link = s.link :=
  by unfold dropReference; split <;> rfl
@[simp] theorem dropReference_freeCount (s : State) (i : Fin 64) :
    (dropReference s i).freeCount = s.freeCount :=
  by unfold dropReference; split <;> rfl
@[simp] theorem dropReference_pending (s : State) (i : Fin 64) :
    (dropReference s i).pending = s.pending :=
  by unfold dropReference; split <;> rfl
@[simp] theorem dropReference_store_memory (s : State) (i : Fin 64) :
    (dropReference s i).store.memory = s.store.memory :=
  by unfold dropReference; split <;> rfl
@[simp] theorem dropReference_store_cursor (s : State) (i : Fin 64) :
    (dropReference s i).store.cursor = s.store.cursor :=
  by unfold dropReference; split <;> rfl
@[simp] theorem dropReference_store_buffer (s : State) (i : Fin 64) :
    (dropReference s i).store.buffer = s.store.buffer :=
  by unfold dropReference; split <;> rfl
@[simp] theorem dropReference_store_inFlight (s : State) (i : Fin 64) :
    (dropReference s i).store.inFlight = s.store.inFlight :=
  by unfold dropReference; split <;> rfl
@[simp] theorem dropReference_store_lastGranted (s : State) (i : Fin 64) :
    (dropReference s i).store.lastGranted = s.store.lastGranted :=
  by unfold dropReference; split <;> rfl
@[simp] theorem dropReference_store_lastPreparer (s : State) (i : Fin 64) :
    (dropReference s i).store.lastPreparer = s.store.lastPreparer :=
  by unfold dropReference; split <;> rfl

/-! ### dropPendingTile -/

@[simp] theorem dropPendingTile_inReset (s : State) (p : PendingFields) :
    (dropPendingTile s p).inReset = s.inReset :=
  by unfold dropPendingTile; split <;> simp
@[simp] theorem dropPendingTile_geometry (s : State) (p : PendingFields) :
    (dropPendingTile s p).geometry = s.geometry :=
  by unfold dropPendingTile; split <;> simp
@[simp] theorem dropPendingTile_tracker (s : State) (p : PendingFields) :
    (dropPendingTile s p).tracker = s.tracker :=
  by unfold dropPendingTile; split <;> simp
@[simp] theorem dropPendingTile_engine (s : State) (p : PendingFields) :
    (dropPendingTile s p).engine = s.engine :=
  by unfold dropPendingTile; split <;> simp
@[simp] theorem dropPendingTile_zones (s : State) (p : PendingFields) :
    (dropPendingTile s p).zones = s.zones :=
  by unfold dropPendingTile; split <;> simp
@[simp] theorem dropPendingTile_front (s : State) (p : PendingFields) :
    (dropPendingTile s p).front = s.front :=
  by unfold dropPendingTile; split <;> simp
@[simp] theorem dropPendingTile_back (s : State) (p : PendingFields) :
    (dropPendingTile s p).back = s.back :=
  by unfold dropPendingTile; split <;> simp
@[simp] theorem dropPendingTile_carriers (s : State) (p : PendingFields) :
    (dropPendingTile s p).carriers = s.carriers :=
  by unfold dropPendingTile; split <;> simp
@[simp] theorem dropPendingTile_pins (s : State) (p : PendingFields) :
    (dropPendingTile s p).pins = s.pins :=
  by unfold dropPendingTile; split <;> simp
@[simp] theorem dropPendingTile_faults (s : State) (p : PendingFields) :
    (dropPendingTile s p).faults = s.faults :=
  by unfold dropPendingTile; split <;> simp
@[simp] theorem dropPendingTile_link (s : State) (p : PendingFields) :
    (dropPendingTile s p).link = s.link :=
  by unfold dropPendingTile; split <;> simp
@[simp] theorem dropPendingTile_freeCount (s : State) (p : PendingFields) :
    (dropPendingTile s p).freeCount = s.freeCount :=
  by unfold dropPendingTile; split <;> simp
@[simp] theorem dropPendingTile_pending (s : State) (p : PendingFields) :
    (dropPendingTile s p).pending = s.pending :=
  by unfold dropPendingTile; split <;> simp
@[simp] theorem dropPendingTile_store_memory (s : State) (p : PendingFields) :
    (dropPendingTile s p).store.memory = s.store.memory :=
  by unfold dropPendingTile; split <;> simp
@[simp] theorem dropPendingTile_store_cursor (s : State) (p : PendingFields) :
    (dropPendingTile s p).store.cursor = s.store.cursor :=
  by unfold dropPendingTile; split <;> simp
@[simp] theorem dropPendingTile_store_buffer (s : State) (p : PendingFields) :
    (dropPendingTile s p).store.buffer = s.store.buffer :=
  by unfold dropPendingTile; split <;> simp
@[simp] theorem dropPendingTile_store_inFlight (s : State) (p : PendingFields) :
    (dropPendingTile s p).store.inFlight = s.store.inFlight :=
  by unfold dropPendingTile; split <;> simp
@[simp] theorem dropPendingTile_store_lastGranted (s : State) (p : PendingFields) :
    (dropPendingTile s p).store.lastGranted = s.store.lastGranted :=
  by unfold dropPendingTile; split <;> simp
@[simp] theorem dropPendingTile_store_lastPreparer (s : State) (p : PendingFields) :
    (dropPendingTile s p).store.lastPreparer = s.store.lastPreparer :=
  by unfold dropPendingTile; split <;> simp

/-! ### applyZone -/

@[simp] theorem applyZone_inReset (s : State) (i : Fin 32) : (applyZone s i).inReset = s.inReset := by
  unfold applyZone; split
  case h_4 => dsimp only; split <;> simp
  all_goals simp
@[simp] theorem applyZone_geometry (s : State) (i : Fin 32) :
    (applyZone s i).geometry = s.geometry := by
  unfold applyZone; split
  case h_4 => dsimp only; split <;> simp
  all_goals simp
@[simp] theorem applyZone_tracker (s : State) (i : Fin 32) : (applyZone s i).tracker = s.tracker := by
  unfold applyZone; split
  case h_4 => dsimp only; split <;> simp
  all_goals simp
@[simp] theorem applyZone_engine (s : State) (i : Fin 32) : (applyZone s i).engine = s.engine := by
  unfold applyZone; split
  case h_4 => dsimp only; split <;> simp
  all_goals simp
@[simp] theorem applyZone_front (s : State) (i : Fin 32) : (applyZone s i).front = s.front := by
  unfold applyZone; split
  case h_4 => dsimp only; split <;> simp
  all_goals simp
@[simp] theorem applyZone_back (s : State) (i : Fin 32) : (applyZone s i).back = s.back := by
  unfold applyZone; split
  case h_4 => dsimp only; split <;> simp
  all_goals simp
@[simp] theorem applyZone_carriers (s : State) (i : Fin 32) :
    (applyZone s i).carriers = s.carriers := by
  unfold applyZone; split
  case h_4 => dsimp only; split <;> simp
  all_goals simp
@[simp] theorem applyZone_pins (s : State) (i : Fin 32) : (applyZone s i).pins = s.pins := by
  unfold applyZone; split
  case h_4 => dsimp only; split <;> simp
  all_goals simp
@[simp] theorem applyZone_faults (s : State) (i : Fin 32) : (applyZone s i).faults = s.faults := by
  unfold applyZone; split
  case h_4 => dsimp only; split <;> simp
  all_goals simp
@[simp] theorem applyZone_link (s : State) (i : Fin 32) : (applyZone s i).link = s.link := by
  unfold applyZone; split
  case h_4 => dsimp only; split <;> simp
  all_goals simp
@[simp] theorem applyZone_freeCount (s : State) (i : Fin 32) :
    (applyZone s i).freeCount = s.freeCount := by
  unfold applyZone; split
  case h_4 => dsimp only; split <;> simp
  all_goals simp
@[simp] theorem applyZone_pending (s : State) (i : Fin 32) : (applyZone s i).pending = s.pending := by
  unfold applyZone; split
  case h_4 => dsimp only; split <;> simp
  all_goals simp
@[simp] theorem applyZone_store_memory (s : State) (i : Fin 32) :
    (applyZone s i).store.memory = s.store.memory := by
  unfold applyZone; split
  case h_4 => dsimp only; split <;> simp
  all_goals simp
@[simp] theorem applyZone_store_cursor (s : State) (i : Fin 32) :
    (applyZone s i).store.cursor = s.store.cursor := by
  unfold applyZone; split
  case h_4 => dsimp only; split <;> simp
  all_goals simp
@[simp] theorem applyZone_store_buffer (s : State) (i : Fin 32) :
    (applyZone s i).store.buffer = s.store.buffer := by
  unfold applyZone; split
  case h_4 => dsimp only; split <;> simp
  all_goals simp
@[simp] theorem applyZone_store_inFlight (s : State) (i : Fin 32) :
    (applyZone s i).store.inFlight = s.store.inFlight := by
  unfold applyZone; split
  case h_4 => dsimp only; split <;> simp
  all_goals simp
@[simp] theorem applyZone_store_lastGranted (s : State) (i : Fin 32) :
    (applyZone s i).store.lastGranted = s.store.lastGranted := by
  unfold applyZone; split
  case h_4 => dsimp only; split <;> simp
  all_goals simp
@[simp] theorem applyZone_store_lastPreparer (s : State) (i : Fin 32) :
    (applyZone s i).store.lastPreparer = s.store.lastPreparer := by
  unfold applyZone; split
  case h_4 => dsimp only; split <;> simp
  all_goals simp
@[simp] theorem applyZone_zones_pendingMark (s : State) (i : Fin 32) :
    (applyZone s i).zones.pendingMark = s.zones.pendingMark := by
  unfold applyZone; split
  case h_4 => dsimp only; split <;> simp
  all_goals simp
@[simp] theorem applyZone_zones_lastMark (s : State) (i : Fin 32) :
    (applyZone s i).zones.lastMark = s.zones.lastMark := by
  unfold applyZone; split
  case h_4 => dsimp only; split <;> simp
  all_goals simp

/-! ### setCourseDone -/

@[simp] theorem setCourseDone_inReset (s : State) : (setCourseDone s).inReset = s.inReset := rfl
@[simp] theorem setCourseDone_geometry (s : State) : (setCourseDone s).geometry = s.geometry := rfl
@[simp] theorem setCourseDone_tracker (s : State) : (setCourseDone s).tracker = s.tracker := rfl
@[simp] theorem setCourseDone_engine (s : State) : (setCourseDone s).engine = s.engine := rfl
@[simp] theorem setCourseDone_zones (s : State) : (setCourseDone s).zones = s.zones := rfl
@[simp] theorem setCourseDone_store (s : State) : (setCourseDone s).store = s.store := rfl
@[simp] theorem setCourseDone_front (s : State) : (setCourseDone s).front = s.front := rfl
@[simp] theorem setCourseDone_back (s : State) : (setCourseDone s).back = s.back := rfl
@[simp] theorem setCourseDone_carriers (s : State) : (setCourseDone s).carriers = s.carriers := rfl
@[simp] theorem setCourseDone_pins (s : State) : (setCourseDone s).pins = s.pins := rfl
@[simp] theorem setCourseDone_link (s : State) : (setCourseDone s).link = s.link := rfl
@[simp] theorem setCourseDone_freeCount (s : State) : (setCourseDone s).freeCount = s.freeCount :=
  rfl
@[simp] theorem setCourseDone_pending (s : State) : (setCourseDone s).pending = s.pending := rfl
@[simp] theorem setCourseDone_faults_records (s : State) :
    (setCourseDone s).faults.records = s.faults.records :=
  rfl
@[simp] theorem setCourseDone_faults_policy (s : State) :
    (setCourseDone s).faults.policy = s.faults.policy :=
  rfl
@[simp] theorem setCourseDone_faults_haltAsserted (s : State) :
    (setCourseDone s).faults.haltAsserted = s.faults.haltAsserted :=
  rfl
@[simp] theorem setCourseDone_faults_markDone (s : State) :
    (setCourseDone s).faults.markDone = s.faults.markDone :=
  rfl
@[simp] theorem setCourseDone_faults_loadEmpty (s : State) :
    (setCourseDone s).faults.loadEmpty = s.faults.loadEmpty :=
  rfl

/-! ### setMarkDone -/

@[simp] theorem setMarkDone_inReset (s : State) : (setMarkDone s).inReset = s.inReset := rfl
@[simp] theorem setMarkDone_geometry (s : State) : (setMarkDone s).geometry = s.geometry := rfl
@[simp] theorem setMarkDone_tracker (s : State) : (setMarkDone s).tracker = s.tracker := rfl
@[simp] theorem setMarkDone_engine (s : State) : (setMarkDone s).engine = s.engine := rfl
@[simp] theorem setMarkDone_zones (s : State) : (setMarkDone s).zones = s.zones := rfl
@[simp] theorem setMarkDone_store (s : State) : (setMarkDone s).store = s.store := rfl
@[simp] theorem setMarkDone_front (s : State) : (setMarkDone s).front = s.front := rfl
@[simp] theorem setMarkDone_back (s : State) : (setMarkDone s).back = s.back := rfl
@[simp] theorem setMarkDone_carriers (s : State) : (setMarkDone s).carriers = s.carriers := rfl
@[simp] theorem setMarkDone_pins (s : State) : (setMarkDone s).pins = s.pins := rfl
@[simp] theorem setMarkDone_link (s : State) : (setMarkDone s).link = s.link := rfl
@[simp] theorem setMarkDone_freeCount (s : State) : (setMarkDone s).freeCount = s.freeCount := rfl
@[simp] theorem setMarkDone_pending (s : State) : (setMarkDone s).pending = s.pending := rfl
@[simp] theorem setMarkDone_faults_records (s : State) :
    (setMarkDone s).faults.records = s.faults.records :=
  rfl
@[simp] theorem setMarkDone_faults_policy (s : State) :
    (setMarkDone s).faults.policy = s.faults.policy :=
  rfl
@[simp] theorem setMarkDone_faults_haltAsserted (s : State) :
    (setMarkDone s).faults.haltAsserted = s.faults.haltAsserted :=
  rfl
@[simp] theorem setMarkDone_faults_courseDone (s : State) :
    (setMarkDone s).faults.courseDone = s.faults.courseDone :=
  rfl
@[simp] theorem setMarkDone_faults_loadEmpty (s : State) :
    (setMarkDone s).faults.loadEmpty = s.faults.loadEmpty :=
  rfl

/-! ### setLoadEmpty -/

@[simp] theorem setLoadEmpty_inReset (s : State) : (setLoadEmpty s).inReset = s.inReset := rfl
@[simp] theorem setLoadEmpty_geometry (s : State) : (setLoadEmpty s).geometry = s.geometry := rfl
@[simp] theorem setLoadEmpty_tracker (s : State) : (setLoadEmpty s).tracker = s.tracker := rfl
@[simp] theorem setLoadEmpty_engine (s : State) : (setLoadEmpty s).engine = s.engine := rfl
@[simp] theorem setLoadEmpty_zones (s : State) : (setLoadEmpty s).zones = s.zones := rfl
@[simp] theorem setLoadEmpty_store (s : State) : (setLoadEmpty s).store = s.store := rfl
@[simp] theorem setLoadEmpty_front (s : State) : (setLoadEmpty s).front = s.front := rfl
@[simp] theorem setLoadEmpty_back (s : State) : (setLoadEmpty s).back = s.back := rfl
@[simp] theorem setLoadEmpty_carriers (s : State) : (setLoadEmpty s).carriers = s.carriers := rfl
@[simp] theorem setLoadEmpty_pins (s : State) : (setLoadEmpty s).pins = s.pins := rfl
@[simp] theorem setLoadEmpty_link (s : State) : (setLoadEmpty s).link = s.link := rfl
@[simp] theorem setLoadEmpty_freeCount (s : State) : (setLoadEmpty s).freeCount = s.freeCount :=
  rfl
@[simp] theorem setLoadEmpty_pending (s : State) : (setLoadEmpty s).pending = s.pending := rfl
@[simp] theorem setLoadEmpty_faults_records (s : State) :
    (setLoadEmpty s).faults.records = s.faults.records :=
  rfl
@[simp] theorem setLoadEmpty_faults_policy (s : State) :
    (setLoadEmpty s).faults.policy = s.faults.policy :=
  rfl
@[simp] theorem setLoadEmpty_faults_haltAsserted (s : State) :
    (setLoadEmpty s).faults.haltAsserted = s.faults.haltAsserted :=
  rfl
@[simp] theorem setLoadEmpty_faults_courseDone (s : State) :
    (setLoadEmpty s).faults.courseDone = s.faults.courseDone :=
  rfl
@[simp] theorem setLoadEmpty_faults_markDone (s : State) :
    (setLoadEmpty s).faults.markDone = s.faults.markDone :=
  rfl

/-! ### completeMark -/

@[simp] theorem completeMark_inReset (s : State) : (completeMark s).inReset = s.inReset :=
  by unfold completeMark; split <;> rfl
@[simp] theorem completeMark_geometry (s : State) : (completeMark s).geometry = s.geometry :=
  by unfold completeMark; split <;> rfl
@[simp] theorem completeMark_tracker (s : State) : (completeMark s).tracker = s.tracker :=
  by unfold completeMark; split <;> rfl
@[simp] theorem completeMark_engine (s : State) : (completeMark s).engine = s.engine :=
  by unfold completeMark; split <;> rfl
@[simp] theorem completeMark_store (s : State) : (completeMark s).store = s.store :=
  by unfold completeMark; split <;> rfl
@[simp] theorem completeMark_front (s : State) : (completeMark s).front = s.front :=
  by unfold completeMark; split <;> rfl
@[simp] theorem completeMark_back (s : State) : (completeMark s).back = s.back :=
  by unfold completeMark; split <;> rfl
@[simp] theorem completeMark_carriers (s : State) : (completeMark s).carriers = s.carriers :=
  by unfold completeMark; split <;> rfl
@[simp] theorem completeMark_pins (s : State) : (completeMark s).pins = s.pins :=
  by unfold completeMark; split <;> rfl
@[simp] theorem completeMark_link (s : State) : (completeMark s).link = s.link :=
  by unfold completeMark; split <;> rfl
@[simp] theorem completeMark_freeCount (s : State) : (completeMark s).freeCount = s.freeCount :=
  by unfold completeMark; split <;> rfl
@[simp] theorem completeMark_pending (s : State) : (completeMark s).pending = s.pending :=
  by unfold completeMark; split <;> rfl
@[simp] theorem completeMark_zones_places (s : State) :
    (completeMark s).zones.places = s.zones.places :=
  by unfold completeMark; split <;> rfl
@[simp] theorem completeMark_faults_records (s : State) :
    (completeMark s).faults.records = s.faults.records :=
  by unfold completeMark; split <;> rfl
@[simp] theorem completeMark_faults_policy (s : State) :
    (completeMark s).faults.policy = s.faults.policy :=
  by unfold completeMark; split <;> rfl
@[simp] theorem completeMark_faults_haltAsserted (s : State) :
    (completeMark s).faults.haltAsserted = s.faults.haltAsserted :=
  by unfold completeMark; split <;> rfl
@[simp] theorem completeMark_faults_courseDone (s : State) :
    (completeMark s).faults.courseDone = s.faults.courseDone :=
  by unfold completeMark; split <;> rfl
@[simp] theorem completeMark_faults_loadEmpty (s : State) :
    (completeMark s).faults.loadEmpty = s.faults.loadEmpty :=
  by unfold completeMark; split <;> rfl

/-! ### applyPendingParts -/

@[simp] theorem applyPendingParts_inReset (s : State) : (applyPendingParts s).inReset = s.inReset := by
  simp only [applyPendingParts, completeMark_inReset]
  exact foldl_keeps (fun s : State => s.inReset) (fun s i => by simp) _ s
@[simp] theorem applyPendingParts_geometry (s : State) :
    (applyPendingParts s).geometry = s.geometry := by
  simp only [applyPendingParts, completeMark_geometry]
  exact foldl_keeps (fun s : State => s.geometry) (fun s i => by simp) _ s
@[simp] theorem applyPendingParts_tracker (s : State) : (applyPendingParts s).tracker = s.tracker := by
  simp only [applyPendingParts, completeMark_tracker]
  exact foldl_keeps (fun s : State => s.tracker) (fun s i => by simp) _ s
@[simp] theorem applyPendingParts_engine (s : State) : (applyPendingParts s).engine = s.engine := by
  simp only [applyPendingParts, completeMark_engine]
  exact foldl_keeps (fun s : State => s.engine) (fun s i => by simp) _ s
@[simp] theorem applyPendingParts_front (s : State) : (applyPendingParts s).front = s.front := by
  simp only [applyPendingParts, completeMark_front]
  exact foldl_keeps (fun s : State => s.front) (fun s i => by simp) _ s
@[simp] theorem applyPendingParts_back (s : State) : (applyPendingParts s).back = s.back := by
  simp only [applyPendingParts, completeMark_back]
  exact foldl_keeps (fun s : State => s.back) (fun s i => by simp) _ s
@[simp] theorem applyPendingParts_carriers (s : State) :
    (applyPendingParts s).carriers = s.carriers := by
  simp only [applyPendingParts, completeMark_carriers]
  exact foldl_keeps (fun s : State => s.carriers) (fun s i => by simp) _ s
@[simp] theorem applyPendingParts_pins (s : State) : (applyPendingParts s).pins = s.pins := by
  simp only [applyPendingParts, completeMark_pins]
  exact foldl_keeps (fun s : State => s.pins) (fun s i => by simp) _ s
@[simp] theorem applyPendingParts_link (s : State) : (applyPendingParts s).link = s.link := by
  simp only [applyPendingParts, completeMark_link]
  exact foldl_keeps (fun s : State => s.link) (fun s i => by simp) _ s
@[simp] theorem applyPendingParts_freeCount (s : State) :
    (applyPendingParts s).freeCount = s.freeCount := by
  simp only [applyPendingParts, completeMark_freeCount]
  exact foldl_keeps (fun s : State => s.freeCount) (fun s i => by simp) _ s
@[simp] theorem applyPendingParts_pending (s : State) : (applyPendingParts s).pending = s.pending := by
  simp only [applyPendingParts, completeMark_pending]
  exact foldl_keeps (fun s : State => s.pending) (fun s i => by simp) _ s
@[simp] theorem applyPendingParts_store_memory (s : State) :
    (applyPendingParts s).store.memory = s.store.memory := by
  simp only [applyPendingParts, completeMark_store]
  exact foldl_keeps (fun s : State => s.store.memory) (fun s i => by simp) _ s
@[simp] theorem applyPendingParts_store_cursor (s : State) :
    (applyPendingParts s).store.cursor = s.store.cursor := by
  simp only [applyPendingParts, completeMark_store]
  exact foldl_keeps (fun s : State => s.store.cursor) (fun s i => by simp) _ s
@[simp] theorem applyPendingParts_store_buffer (s : State) :
    (applyPendingParts s).store.buffer = s.store.buffer := by
  simp only [applyPendingParts, completeMark_store]
  exact foldl_keeps (fun s : State => s.store.buffer) (fun s i => by simp) _ s
@[simp] theorem applyPendingParts_store_inFlight (s : State) :
    (applyPendingParts s).store.inFlight = s.store.inFlight := by
  simp only [applyPendingParts, completeMark_store]
  exact foldl_keeps (fun s : State => s.store.inFlight) (fun s i => by simp) _ s
@[simp] theorem applyPendingParts_store_lastGranted (s : State) :
    (applyPendingParts s).store.lastGranted = s.store.lastGranted := by
  simp only [applyPendingParts, completeMark_store]
  exact foldl_keeps (fun s : State => s.store.lastGranted) (fun s i => by simp) _ s
@[simp] theorem applyPendingParts_store_lastPreparer (s : State) :
    (applyPendingParts s).store.lastPreparer = s.store.lastPreparer := by
  simp only [applyPendingParts, completeMark_store]
  exact foldl_keeps (fun s : State => s.store.lastPreparer) (fun s i => by simp) _ s
@[simp] theorem applyPendingParts_faults_records (s : State) :
    (applyPendingParts s).faults.records = s.faults.records := by
  simp only [applyPendingParts, completeMark_faults_records]
  exact foldl_keeps (fun s : State => s.faults.records) (fun s i => by simp) _ s
@[simp] theorem applyPendingParts_faults_policy (s : State) :
    (applyPendingParts s).faults.policy = s.faults.policy := by
  simp only [applyPendingParts, completeMark_faults_policy]
  exact foldl_keeps (fun s : State => s.faults.policy) (fun s i => by simp) _ s
@[simp] theorem applyPendingParts_faults_haltAsserted (s : State) :
    (applyPendingParts s).faults.haltAsserted = s.faults.haltAsserted := by
  simp only [applyPendingParts, completeMark_faults_haltAsserted]
  exact foldl_keeps (fun s : State => s.faults.haltAsserted) (fun s i => by simp) _ s
@[simp] theorem applyPendingParts_faults_courseDone (s : State) :
    (applyPendingParts s).faults.courseDone = s.faults.courseDone := by
  simp only [applyPendingParts, completeMark_faults_courseDone]
  exact foldl_keeps (fun s : State => s.faults.courseDone) (fun s i => by simp) _ s
@[simp] theorem applyPendingParts_faults_loadEmpty (s : State) :
    (applyPendingParts s).faults.loadEmpty = s.faults.loadEmpty := by
  simp only [applyPendingParts, completeMark_faults_loadEmpty]
  exact foldl_keeps (fun s : State => s.faults.loadEmpty) (fun s i => by simp) _ s

/-! ### giveUpChannels -/

@[simp] theorem giveUpChannels_inReset (s : State) : (giveUpChannels s).inReset = s.inReset := rfl
@[simp] theorem giveUpChannels_geometry (s : State) : (giveUpChannels s).geometry = s.geometry :=
  rfl
@[simp] theorem giveUpChannels_tracker (s : State) : (giveUpChannels s).tracker = s.tracker := rfl
@[simp] theorem giveUpChannels_engine (s : State) : (giveUpChannels s).engine = s.engine := rfl
@[simp] theorem giveUpChannels_zones (s : State) : (giveUpChannels s).zones = s.zones := rfl
@[simp] theorem giveUpChannels_store (s : State) : (giveUpChannels s).store = s.store := rfl
@[simp] theorem giveUpChannels_carriers (s : State) : (giveUpChannels s).carriers = s.carriers :=
  rfl
@[simp] theorem giveUpChannels_pins (s : State) : (giveUpChannels s).pins = s.pins := rfl
@[simp] theorem giveUpChannels_faults (s : State) : (giveUpChannels s).faults = s.faults := rfl
@[simp] theorem giveUpChannels_link (s : State) : (giveUpChannels s).link = s.link := rfl
@[simp] theorem giveUpChannels_freeCount (s : State) : (giveUpChannels s).freeCount = s.freeCount :=
  rfl
@[simp] theorem giveUpChannels_pending (s : State) : (giveUpChannels s).pending = s.pending := rfl

/-! ### applyCorrection -/

@[simp] theorem applyCorrection_inReset (s : State) : (applyCorrection s).1.inReset = s.inReset := by
  unfold applyCorrection; split
  · rfl
  · dsimp only; split <;> rfl
@[simp] theorem applyCorrection_geometry (s : State) :
    (applyCorrection s).1.geometry = s.geometry := by
  unfold applyCorrection; split
  · rfl
  · dsimp only; split <;> rfl
@[simp] theorem applyCorrection_engine (s : State) : (applyCorrection s).1.engine = s.engine := by
  unfold applyCorrection; split
  · rfl
  · dsimp only; split <;> rfl
@[simp] theorem applyCorrection_zones (s : State) : (applyCorrection s).1.zones = s.zones := by
  unfold applyCorrection; split
  · rfl
  · dsimp only; split <;> rfl
@[simp] theorem applyCorrection_store (s : State) : (applyCorrection s).1.store = s.store := by
  unfold applyCorrection; split
  · rfl
  · dsimp only; split <;> rfl
@[simp] theorem applyCorrection_front (s : State) : (applyCorrection s).1.front = s.front := by
  unfold applyCorrection; split
  · rfl
  · dsimp only; split <;> rfl
@[simp] theorem applyCorrection_back (s : State) : (applyCorrection s).1.back = s.back := by
  unfold applyCorrection; split
  · rfl
  · dsimp only; split <;> rfl
@[simp] theorem applyCorrection_carriers (s : State) :
    (applyCorrection s).1.carriers = s.carriers := by
  unfold applyCorrection; split
  · rfl
  · dsimp only; split <;> rfl
@[simp] theorem applyCorrection_pins (s : State) : (applyCorrection s).1.pins = s.pins := by
  unfold applyCorrection; split
  · rfl
  · dsimp only; split <;> rfl
@[simp] theorem applyCorrection_faults (s : State) : (applyCorrection s).1.faults = s.faults := by
  unfold applyCorrection; split
  · rfl
  · dsimp only; split <;> rfl
@[simp] theorem applyCorrection_link (s : State) : (applyCorrection s).1.link = s.link := by
  unfold applyCorrection; split
  · rfl
  · dsimp only; split <;> rfl
@[simp] theorem applyCorrection_freeCount (s : State) :
    (applyCorrection s).1.freeCount = s.freeCount := by
  unfold applyCorrection; split
  · rfl
  · dsimp only; split <;> rfl
@[simp] theorem applyCorrection_pending (s : State) : (applyCorrection s).1.pending = s.pending := by
  unfold applyCorrection; split
  · rfl
  · dsimp only; split <;> rfl

/-! ### raisePin -/

@[simp] theorem raisePin_inReset (s : State) (sys : Fin 4) :
    (raisePin s sys).1.inReset = s.inReset := by
  unfold raisePin; split
  · rfl
  · rfl
  · dsimp only; split <;> split <;> simp
@[simp] theorem raisePin_geometry (s : State) (sys : Fin 4) :
    (raisePin s sys).1.geometry = s.geometry := by
  unfold raisePin; split
  · rfl
  · rfl
  · dsimp only; split <;> split <;> simp
@[simp] theorem raisePin_tracker (s : State) (sys : Fin 4) :
    (raisePin s sys).1.tracker = s.tracker := by
  unfold raisePin; split
  · rfl
  · rfl
  · dsimp only; split <;> split <;> simp
@[simp] theorem raisePin_engine (s : State) (sys : Fin 4) : (raisePin s sys).1.engine = s.engine := by
  unfold raisePin; split
  · rfl
  · rfl
  · dsimp only; split <;> split <;> simp
@[simp] theorem raisePin_zones (s : State) (sys : Fin 4) : (raisePin s sys).1.zones = s.zones := by
  unfold raisePin; split
  · rfl
  · rfl
  · dsimp only; split <;> split <;> simp
@[simp] theorem raisePin_store (s : State) (sys : Fin 4) : (raisePin s sys).1.store = s.store := by
  unfold raisePin; split
  · rfl
  · rfl
  · dsimp only; split <;> split <;> simp
@[simp] theorem raisePin_front (s : State) (sys : Fin 4) : (raisePin s sys).1.front = s.front := by
  unfold raisePin; split
  · rfl
  · rfl
  · dsimp only; split <;> split <;> simp
@[simp] theorem raisePin_back (s : State) (sys : Fin 4) : (raisePin s sys).1.back = s.back := by
  unfold raisePin; split
  · rfl
  · rfl
  · dsimp only; split <;> split <;> simp
@[simp] theorem raisePin_faults (s : State) (sys : Fin 4) : (raisePin s sys).1.faults = s.faults := by
  unfold raisePin; split
  · rfl
  · rfl
  · dsimp only; split <;> split <;> simp
@[simp] theorem raisePin_link (s : State) (sys : Fin 4) : (raisePin s sys).1.link = s.link := by
  unfold raisePin; split
  · rfl
  · rfl
  · dsimp only; split <;> split <;> simp
@[simp] theorem raisePin_freeCount (s : State) (sys : Fin 4) :
    (raisePin s sys).1.freeCount = s.freeCount := by
  unfold raisePin; split
  · rfl
  · rfl
  · dsimp only; split <;> split <;> simp
@[simp] theorem raisePin_pending (s : State) (sys : Fin 4) :
    (raisePin s sys).1.pending = s.pending := by
  unfold raisePin; split
  · rfl
  · rfl
  · dsimp only; split <;> split <;> simp

/-! ### raisePins -/

@[simp] theorem raisePins_inReset (s : State) : (raisePins s).1.inReset = s.inReset := by
  unfold raisePins; generalize List.finRange 4 = l
  exact foldl_pair_keeps (f := raisePin) (fun s : State => s.inReset) (fun s i => by simp) l (s, [])
@[simp] theorem raisePins_geometry (s : State) : (raisePins s).1.geometry = s.geometry := by
  unfold raisePins; generalize List.finRange 4 = l
  exact foldl_pair_keeps (f := raisePin) (fun s : State => s.geometry) (fun s i => by simp) l (s, [])
@[simp] theorem raisePins_tracker (s : State) : (raisePins s).1.tracker = s.tracker := by
  unfold raisePins; generalize List.finRange 4 = l
  exact foldl_pair_keeps (f := raisePin) (fun s : State => s.tracker) (fun s i => by simp) l (s, [])
@[simp] theorem raisePins_engine (s : State) : (raisePins s).1.engine = s.engine := by
  unfold raisePins; generalize List.finRange 4 = l
  exact foldl_pair_keeps (f := raisePin) (fun s : State => s.engine) (fun s i => by simp) l (s, [])
@[simp] theorem raisePins_zones (s : State) : (raisePins s).1.zones = s.zones := by
  unfold raisePins; generalize List.finRange 4 = l
  exact foldl_pair_keeps (f := raisePin) (fun s : State => s.zones) (fun s i => by simp) l (s, [])
@[simp] theorem raisePins_store (s : State) : (raisePins s).1.store = s.store := by
  unfold raisePins; generalize List.finRange 4 = l
  exact foldl_pair_keeps (f := raisePin) (fun s : State => s.store) (fun s i => by simp) l (s, [])
@[simp] theorem raisePins_front (s : State) : (raisePins s).1.front = s.front := by
  unfold raisePins; generalize List.finRange 4 = l
  exact foldl_pair_keeps (f := raisePin) (fun s : State => s.front) (fun s i => by simp) l (s, [])
@[simp] theorem raisePins_back (s : State) : (raisePins s).1.back = s.back := by
  unfold raisePins; generalize List.finRange 4 = l
  exact foldl_pair_keeps (f := raisePin) (fun s : State => s.back) (fun s i => by simp) l (s, [])
@[simp] theorem raisePins_faults (s : State) : (raisePins s).1.faults = s.faults := by
  unfold raisePins; generalize List.finRange 4 = l
  exact foldl_pair_keeps (f := raisePin) (fun s : State => s.faults) (fun s i => by simp) l (s, [])
@[simp] theorem raisePins_link (s : State) : (raisePins s).1.link = s.link := by
  unfold raisePins; generalize List.finRange 4 = l
  exact foldl_pair_keeps (f := raisePin) (fun s : State => s.link) (fun s i => by simp) l (s, [])
@[simp] theorem raisePins_freeCount (s : State) : (raisePins s).1.freeCount = s.freeCount := by
  unfold raisePins; generalize List.finRange 4 = l
  exact foldl_pair_keeps (f := raisePin) (fun s : State => s.freeCount) (fun s i => by simp) l (s, [])
@[simp] theorem raisePins_pending (s : State) : (raisePins s).1.pending = s.pending := by
  unfold raisePins; generalize List.finRange 4 = l
  exact foldl_pair_keeps (f := raisePin) (fun s : State => s.pending) (fun s i => by simp) l (s, [])

/-! ### noteReport -/

@[simp] theorem noteReport_inReset (s : State) (r : Report) :
    (noteReport s r).inReset = s.inReset :=
  rfl
@[simp] theorem noteReport_geometry (s : State) (r : Report) :
    (noteReport s r).geometry = s.geometry :=
  rfl
@[simp] theorem noteReport_tracker (s : State) (r : Report) :
    (noteReport s r).tracker = s.tracker :=
  rfl
@[simp] theorem noteReport_engine (s : State) (r : Report) : (noteReport s r).engine = s.engine :=
  rfl
@[simp] theorem noteReport_zones (s : State) (r : Report) : (noteReport s r).zones = s.zones := rfl
@[simp] theorem noteReport_store (s : State) (r : Report) : (noteReport s r).store = s.store := rfl
@[simp] theorem noteReport_front (s : State) (r : Report) : (noteReport s r).front = s.front := rfl
@[simp] theorem noteReport_back (s : State) (r : Report) : (noteReport s r).back = s.back := rfl
@[simp] theorem noteReport_carriers (s : State) (r : Report) :
    (noteReport s r).carriers = s.carriers :=
  rfl
@[simp] theorem noteReport_pins (s : State) (r : Report) : (noteReport s r).pins = s.pins := rfl
@[simp] theorem noteReport_link (s : State) (r : Report) : (noteReport s r).link = s.link := rfl
@[simp] theorem noteReport_freeCount (s : State) (r : Report) :
    (noteReport s r).freeCount = s.freeCount :=
  rfl
@[simp] theorem noteReport_pending (s : State) (r : Report) :
    (noteReport s r).pending = s.pending :=
  rfl
@[simp] theorem noteReport_faults_policy (s : State) (r : Report) :
    (noteReport s r).faults.policy = s.faults.policy :=
  rfl
@[simp] theorem noteReport_faults_haltAsserted (s : State) (r : Report) :
    (noteReport s r).faults.haltAsserted = s.faults.haltAsserted :=
  rfl
@[simp] theorem noteReport_faults_courseDone (s : State) (r : Report) :
    (noteReport s r).faults.courseDone = s.faults.courseDone :=
  rfl
@[simp] theorem noteReport_faults_markDone (s : State) (r : Report) :
    (noteReport s r).faults.markDone = s.faults.markDone :=
  rfl
@[simp] theorem noteReport_faults_loadEmpty (s : State) (r : Report) :
    (noteReport s r).faults.loadEmpty = s.faults.loadEmpty :=
  rfl

/-! ### foldNotes -/

@[simp] theorem foldNotes_inReset (l : List Report) (s : State) :
    (l.foldl noteReport s).inReset = s.inReset :=
  foldl_keeps (fun s : State => s.inReset) (fun s i => by simp) l s
@[simp] theorem foldNotes_geometry (l : List Report) (s : State) :
    (l.foldl noteReport s).geometry = s.geometry :=
  foldl_keeps (fun s : State => s.geometry) (fun s i => by simp) l s
@[simp] theorem foldNotes_tracker (l : List Report) (s : State) :
    (l.foldl noteReport s).tracker = s.tracker :=
  foldl_keeps (fun s : State => s.tracker) (fun s i => by simp) l s
@[simp] theorem foldNotes_engine (l : List Report) (s : State) :
    (l.foldl noteReport s).engine = s.engine :=
  foldl_keeps (fun s : State => s.engine) (fun s i => by simp) l s
@[simp] theorem foldNotes_zones (l : List Report) (s : State) :
    (l.foldl noteReport s).zones = s.zones :=
  foldl_keeps (fun s : State => s.zones) (fun s i => by simp) l s
@[simp] theorem foldNotes_store (l : List Report) (s : State) :
    (l.foldl noteReport s).store = s.store :=
  foldl_keeps (fun s : State => s.store) (fun s i => by simp) l s
@[simp] theorem foldNotes_front (l : List Report) (s : State) :
    (l.foldl noteReport s).front = s.front :=
  foldl_keeps (fun s : State => s.front) (fun s i => by simp) l s
@[simp] theorem foldNotes_back (l : List Report) (s : State) :
    (l.foldl noteReport s).back = s.back :=
  foldl_keeps (fun s : State => s.back) (fun s i => by simp) l s
@[simp] theorem foldNotes_carriers (l : List Report) (s : State) :
    (l.foldl noteReport s).carriers = s.carriers :=
  foldl_keeps (fun s : State => s.carriers) (fun s i => by simp) l s
@[simp] theorem foldNotes_pins (l : List Report) (s : State) :
    (l.foldl noteReport s).pins = s.pins :=
  foldl_keeps (fun s : State => s.pins) (fun s i => by simp) l s
@[simp] theorem foldNotes_link (l : List Report) (s : State) :
    (l.foldl noteReport s).link = s.link :=
  foldl_keeps (fun s : State => s.link) (fun s i => by simp) l s
@[simp] theorem foldNotes_freeCount (l : List Report) (s : State) :
    (l.foldl noteReport s).freeCount = s.freeCount :=
  foldl_keeps (fun s : State => s.freeCount) (fun s i => by simp) l s
@[simp] theorem foldNotes_pending (l : List Report) (s : State) :
    (l.foldl noteReport s).pending = s.pending :=
  foldl_keeps (fun s : State => s.pending) (fun s i => by simp) l s
@[simp] theorem foldNotes_faults_policy (l : List Report) (s : State) :
    (l.foldl noteReport s).faults.policy = s.faults.policy :=
  foldl_keeps (fun s : State => s.faults.policy) (fun s i => by simp) l s
@[simp] theorem foldNotes_faults_haltAsserted (l : List Report) (s : State) :
    (l.foldl noteReport s).faults.haltAsserted = s.faults.haltAsserted :=
  foldl_keeps (fun s : State => s.faults.haltAsserted) (fun s i => by simp) l s
@[simp] theorem foldNotes_faults_courseDone (l : List Report) (s : State) :
    (l.foldl noteReport s).faults.courseDone = s.faults.courseDone :=
  foldl_keeps (fun s : State => s.faults.courseDone) (fun s i => by simp) l s
@[simp] theorem foldNotes_faults_markDone (l : List Report) (s : State) :
    (l.foldl noteReport s).faults.markDone = s.faults.markDone :=
  foldl_keeps (fun s : State => s.faults.markDone) (fun s i => by simp) l s
@[simp] theorem foldNotes_faults_loadEmpty (l : List Report) (s : State) :
    (l.foldl noteReport s).faults.loadEmpty = s.faults.loadEmpty :=
  foldl_keeps (fun s : State => s.faults.loadEmpty) (fun s i => by simp) l s

/-! ### courseAbort -/

@[simp] theorem courseAbort_inReset (s : State) : (courseAbort s).inReset = s.inReset :=
  by simp [courseAbort]
@[simp] theorem courseAbort_geometry (s : State) : (courseAbort s).geometry = s.geometry :=
  by simp [courseAbort]
@[simp] theorem courseAbort_link (s : State) : (courseAbort s).link = s.link :=
  by simp [courseAbort]
@[simp] theorem courseAbort_pending (s : State) : (courseAbort s).pending = s.pending :=
  by simp [courseAbort]
@[simp] theorem courseAbort_engine_expected (s : State) :
    (courseAbort s).engine.expected = s.engine.expected :=
  by simp [courseAbort]
@[simp] theorem courseAbort_engine_courseNumber (s : State) :
    (courseAbort s).engine.courseNumber = s.engine.courseNumber :=
  by simp [courseAbort]
@[simp] theorem courseAbort_store_memory (s : State) :
    (courseAbort s).store.memory = s.store.memory :=
  by simp [courseAbort]
@[simp] theorem courseAbort_store_cursor (s : State) :
    (courseAbort s).store.cursor = s.store.cursor :=
  by simp [courseAbort]
@[simp] theorem courseAbort_store_buffer (s : State) :
    (courseAbort s).store.buffer = s.store.buffer :=
  by simp [courseAbort]
@[simp] theorem courseAbort_store_inFlight (s : State) :
    (courseAbort s).store.inFlight = s.store.inFlight :=
  by simp [courseAbort]
@[simp] theorem courseAbort_store_lastGranted (s : State) :
    (courseAbort s).store.lastGranted = s.store.lastGranted :=
  by simp [courseAbort]
@[simp] theorem courseAbort_store_lastPreparer (s : State) :
    (courseAbort s).store.lastPreparer = s.store.lastPreparer :=
  by simp [courseAbort]
@[simp] theorem courseAbort_faults_policy (s : State) :
    (courseAbort s).faults.policy = s.faults.policy :=
  by simp [courseAbort]
@[simp] theorem courseAbort_faults_haltAsserted (s : State) :
    (courseAbort s).faults.haltAsserted = s.faults.haltAsserted :=
  by simp [courseAbort]
@[simp] theorem courseAbort_faults_courseDone (s : State) :
    (courseAbort s).faults.courseDone = s.faults.courseDone :=
  by simp [courseAbort]
@[simp] theorem courseAbort_faults_loadEmpty (s : State) :
    (courseAbort s).faults.loadEmpty = s.faults.loadEmpty :=
  by simp [courseAbort]

/-! ### takeReport -/

@[simp] theorem takeReport_inReset (s : State) (r : Report) :
    (takeReport s r).inReset = s.inReset :=
  by unfold takeReport; split <;> simp
@[simp] theorem takeReport_geometry (s : State) (r : Report) :
    (takeReport s r).geometry = s.geometry :=
  by unfold takeReport; split <;> simp
@[simp] theorem takeReport_link (s : State) (r : Report) : (takeReport s r).link = s.link :=
  by unfold takeReport; split <;> simp
@[simp] theorem takeReport_pending (s : State) (r : Report) :
    (takeReport s r).pending = s.pending :=
  by unfold takeReport; split <;> simp
@[simp] theorem takeReport_engine_expected (s : State) (r : Report) :
    (takeReport s r).engine.expected = s.engine.expected :=
  by unfold takeReport; split <;> simp
@[simp] theorem takeReport_engine_courseNumber (s : State) (r : Report) :
    (takeReport s r).engine.courseNumber = s.engine.courseNumber :=
  by unfold takeReport; split <;> simp
@[simp] theorem takeReport_store_memory (s : State) (r : Report) :
    (takeReport s r).store.memory = s.store.memory :=
  by unfold takeReport; split <;> simp
@[simp] theorem takeReport_store_cursor (s : State) (r : Report) :
    (takeReport s r).store.cursor = s.store.cursor :=
  by unfold takeReport; split <;> simp
@[simp] theorem takeReport_store_buffer (s : State) (r : Report) :
    (takeReport s r).store.buffer = s.store.buffer :=
  by unfold takeReport; split <;> simp
@[simp] theorem takeReport_store_inFlight (s : State) (r : Report) :
    (takeReport s r).store.inFlight = s.store.inFlight :=
  by unfold takeReport; split <;> simp
@[simp] theorem takeReport_store_lastGranted (s : State) (r : Report) :
    (takeReport s r).store.lastGranted = s.store.lastGranted :=
  by unfold takeReport; split <;> simp
@[simp] theorem takeReport_store_lastPreparer (s : State) (r : Report) :
    (takeReport s r).store.lastPreparer = s.store.lastPreparer :=
  by unfold takeReport; split <;> simp
@[simp] theorem takeReport_faults_policy (s : State) (r : Report) :
    (takeReport s r).faults.policy = s.faults.policy :=
  by unfold takeReport; split <;> simp
@[simp] theorem takeReport_faults_haltAsserted (s : State) (r : Report) :
    (takeReport s r).faults.haltAsserted = s.faults.haltAsserted :=
  by unfold takeReport; split <;> simp
@[simp] theorem takeReport_faults_courseDone (s : State) (r : Report) :
    (takeReport s r).faults.courseDone = s.faults.courseDone :=
  by unfold takeReport; split <;> simp
@[simp] theorem takeReport_faults_loadEmpty (s : State) (r : Report) :
    (takeReport s r).faults.loadEmpty = s.faults.loadEmpty :=
  by unfold takeReport; split <;> simp

/-! ### foldTakes -/

@[simp] theorem foldTakes_inReset (l : List Report) (s : State) :
    (l.foldl takeReport s).inReset = s.inReset :=
  foldl_keeps (fun s : State => s.inReset) (fun s i => by simp) l s
@[simp] theorem foldTakes_geometry (l : List Report) (s : State) :
    (l.foldl takeReport s).geometry = s.geometry :=
  foldl_keeps (fun s : State => s.geometry) (fun s i => by simp) l s
@[simp] theorem foldTakes_link (l : List Report) (s : State) :
    (l.foldl takeReport s).link = s.link :=
  foldl_keeps (fun s : State => s.link) (fun s i => by simp) l s
@[simp] theorem foldTakes_pending (l : List Report) (s : State) :
    (l.foldl takeReport s).pending = s.pending :=
  foldl_keeps (fun s : State => s.pending) (fun s i => by simp) l s
@[simp] theorem foldTakes_engine_expected (l : List Report) (s : State) :
    (l.foldl takeReport s).engine.expected = s.engine.expected :=
  foldl_keeps (fun s : State => s.engine.expected) (fun s i => by simp) l s
@[simp] theorem foldTakes_engine_courseNumber (l : List Report) (s : State) :
    (l.foldl takeReport s).engine.courseNumber = s.engine.courseNumber :=
  foldl_keeps (fun s : State => s.engine.courseNumber) (fun s i => by simp) l s
@[simp] theorem foldTakes_store_memory (l : List Report) (s : State) :
    (l.foldl takeReport s).store.memory = s.store.memory :=
  foldl_keeps (fun s : State => s.store.memory) (fun s i => by simp) l s
@[simp] theorem foldTakes_store_cursor (l : List Report) (s : State) :
    (l.foldl takeReport s).store.cursor = s.store.cursor :=
  foldl_keeps (fun s : State => s.store.cursor) (fun s i => by simp) l s
@[simp] theorem foldTakes_store_buffer (l : List Report) (s : State) :
    (l.foldl takeReport s).store.buffer = s.store.buffer :=
  foldl_keeps (fun s : State => s.store.buffer) (fun s i => by simp) l s
@[simp] theorem foldTakes_store_inFlight (l : List Report) (s : State) :
    (l.foldl takeReport s).store.inFlight = s.store.inFlight :=
  foldl_keeps (fun s : State => s.store.inFlight) (fun s i => by simp) l s
@[simp] theorem foldTakes_store_lastGranted (l : List Report) (s : State) :
    (l.foldl takeReport s).store.lastGranted = s.store.lastGranted :=
  foldl_keeps (fun s : State => s.store.lastGranted) (fun s i => by simp) l s
@[simp] theorem foldTakes_store_lastPreparer (l : List Report) (s : State) :
    (l.foldl takeReport s).store.lastPreparer = s.store.lastPreparer :=
  foldl_keeps (fun s : State => s.store.lastPreparer) (fun s i => by simp) l s
@[simp] theorem foldTakes_faults_policy (l : List Report) (s : State) :
    (l.foldl takeReport s).faults.policy = s.faults.policy :=
  foldl_keeps (fun s : State => s.faults.policy) (fun s i => by simp) l s
@[simp] theorem foldTakes_faults_haltAsserted (l : List Report) (s : State) :
    (l.foldl takeReport s).faults.haltAsserted = s.faults.haltAsserted :=
  foldl_keeps (fun s : State => s.faults.haltAsserted) (fun s i => by simp) l s
@[simp] theorem foldTakes_faults_courseDone (l : List Report) (s : State) :
    (l.foldl takeReport s).faults.courseDone = s.faults.courseDone :=
  foldl_keeps (fun s : State => s.faults.courseDone) (fun s i => by simp) l s
@[simp] theorem foldTakes_faults_loadEmpty (l : List Report) (s : State) :
    (l.foldl takeReport s).faults.loadEmpty = s.faults.loadEmpty :=
  foldl_keeps (fun s : State => s.faults.loadEmpty) (fun s i => by simp) l s

/-! ### takeReports -/

@[simp] theorem takeReports_inReset (s : State) (l : List Report) :
    (takeReports s l).inReset = s.inReset :=
  by unfold takeReports; split <;> simp
@[simp] theorem takeReports_geometry (s : State) (l : List Report) :
    (takeReports s l).geometry = s.geometry :=
  by unfold takeReports; split <;> simp
@[simp] theorem takeReports_link (s : State) (l : List Report) : (takeReports s l).link = s.link :=
  by unfold takeReports; split <;> simp
@[simp] theorem takeReports_pending (s : State) (l : List Report) :
    (takeReports s l).pending = s.pending :=
  by unfold takeReports; split <;> simp
@[simp] theorem takeReports_engine_expected (s : State) (l : List Report) :
    (takeReports s l).engine.expected = s.engine.expected :=
  by unfold takeReports; split <;> simp
@[simp] theorem takeReports_engine_courseNumber (s : State) (l : List Report) :
    (takeReports s l).engine.courseNumber = s.engine.courseNumber :=
  by unfold takeReports; split <;> simp
@[simp] theorem takeReports_store_memory (s : State) (l : List Report) :
    (takeReports s l).store.memory = s.store.memory :=
  by unfold takeReports; split <;> simp
@[simp] theorem takeReports_store_cursor (s : State) (l : List Report) :
    (takeReports s l).store.cursor = s.store.cursor :=
  by unfold takeReports; split <;> simp
@[simp] theorem takeReports_store_buffer (s : State) (l : List Report) :
    (takeReports s l).store.buffer = s.store.buffer :=
  by unfold takeReports; split <;> simp
@[simp] theorem takeReports_store_inFlight (s : State) (l : List Report) :
    (takeReports s l).store.inFlight = s.store.inFlight :=
  by unfold takeReports; split <;> simp
@[simp] theorem takeReports_store_lastGranted (s : State) (l : List Report) :
    (takeReports s l).store.lastGranted = s.store.lastGranted :=
  by unfold takeReports; split <;> simp
@[simp] theorem takeReports_store_lastPreparer (s : State) (l : List Report) :
    (takeReports s l).store.lastPreparer = s.store.lastPreparer :=
  by unfold takeReports; split <;> simp
@[simp] theorem takeReports_faults_policy (s : State) (l : List Report) :
    (takeReports s l).faults.policy = s.faults.policy :=
  by unfold takeReports; split <;> simp
@[simp] theorem takeReports_faults_haltAsserted (s : State) (l : List Report) :
    (takeReports s l).faults.haltAsserted = s.faults.haltAsserted :=
  by unfold takeReports; split <;> simp
@[simp] theorem takeReports_faults_courseDone (s : State) (l : List Report) :
    (takeReports s l).faults.courseDone = s.faults.courseDone :=
  by unfold takeReports; split <;> simp
@[simp] theorem takeReports_faults_loadEmpty (s : State) (l : List Report) :
    (takeReports s l).faults.loadEmpty = s.faults.loadEmpty :=
  by unfold takeReports; split <;> simp

/-! ### refill -/

@[simp] theorem refill_inReset (s : State) (bed : Bed) (sys : Fin 4) :
    (refill s bed sys).inReset = s.inReset := by
  unfold refill; split
  · rfl
  · split <;> simp
@[simp] theorem refill_geometry (s : State) (bed : Bed) (sys : Fin 4) :
    (refill s bed sys).geometry = s.geometry := by
  unfold refill; split
  · rfl
  · split <;> simp
@[simp] theorem refill_tracker (s : State) (bed : Bed) (sys : Fin 4) :
    (refill s bed sys).tracker = s.tracker := by
  unfold refill; split
  · rfl
  · split <;> simp
@[simp] theorem refill_zones (s : State) (bed : Bed) (sys : Fin 4) :
    (refill s bed sys).zones = s.zones := by
  unfold refill; split
  · rfl
  · split <;> simp
@[simp] theorem refill_store (s : State) (bed : Bed) (sys : Fin 4) :
    (refill s bed sys).store = s.store := by
  unfold refill; split
  · rfl
  · split <;> simp
@[simp] theorem refill_carriers (s : State) (bed : Bed) (sys : Fin 4) :
    (refill s bed sys).carriers = s.carriers := by
  unfold refill; split
  · rfl
  · split <;> simp
@[simp] theorem refill_pins (s : State) (bed : Bed) (sys : Fin 4) :
    (refill s bed sys).pins = s.pins := by
  unfold refill; split
  · rfl
  · split <;> simp
@[simp] theorem refill_faults (s : State) (bed : Bed) (sys : Fin 4) :
    (refill s bed sys).faults = s.faults := by
  unfold refill; split
  · rfl
  · split <;> simp
@[simp] theorem refill_link (s : State) (bed : Bed) (sys : Fin 4) :
    (refill s bed sys).link = s.link := by
  unfold refill; split
  · rfl
  · split <;> simp
@[simp] theorem refill_freeCount (s : State) (bed : Bed) (sys : Fin 4) :
    (refill s bed sys).freeCount = s.freeCount := by
  unfold refill; split
  · rfl
  · split <;> simp
@[simp] theorem refill_pending (s : State) (bed : Bed) (sys : Fin 4) :
    (refill s bed sys).pending = s.pending := by
  unfold refill; split
  · rfl
  · split <;> simp
@[simp] theorem refill_engine_runState (s : State) (bed : Bed) (sys : Fin 4) :
    (refill s bed sys).engine.runState = s.engine.runState := by
  unfold refill; split
  · rfl
  · split <;> simp
@[simp] theorem refill_engine_queue (s : State) (bed : Bed) (sys : Fin 4) :
    (refill s bed sys).engine.queue = s.engine.queue := by
  unfold refill; split
  · rfl
  · split <;> simp
@[simp] theorem refill_engine_expected (s : State) (bed : Bed) (sys : Fin 4) :
    (refill s bed sys).engine.expected = s.engine.expected := by
  unfold refill; split
  · rfl
  · split <;> simp
@[simp] theorem refill_engine_courseNumber (s : State) (bed : Bed) (sys : Fin 4) :
    (refill s bed sys).engine.courseNumber = s.engine.courseNumber := by
  unfold refill; split
  · rfl
  · split <;> simp

/-! ### refillAll -/

@[simp] theorem refillAll_inReset (s : State) : (refillAll s).inReset = s.inReset :=
  foldl_keeps (fun s : State => s.inReset) (fun s i => by simp) _ s
@[simp] theorem refillAll_geometry (s : State) : (refillAll s).geometry = s.geometry :=
  foldl_keeps (fun s : State => s.geometry) (fun s i => by simp) _ s
@[simp] theorem refillAll_tracker (s : State) : (refillAll s).tracker = s.tracker :=
  foldl_keeps (fun s : State => s.tracker) (fun s i => by simp) _ s
@[simp] theorem refillAll_zones (s : State) : (refillAll s).zones = s.zones :=
  foldl_keeps (fun s : State => s.zones) (fun s i => by simp) _ s
@[simp] theorem refillAll_store (s : State) : (refillAll s).store = s.store :=
  foldl_keeps (fun s : State => s.store) (fun s i => by simp) _ s
@[simp] theorem refillAll_carriers (s : State) : (refillAll s).carriers = s.carriers :=
  foldl_keeps (fun s : State => s.carriers) (fun s i => by simp) _ s
@[simp] theorem refillAll_pins (s : State) : (refillAll s).pins = s.pins :=
  foldl_keeps (fun s : State => s.pins) (fun s i => by simp) _ s
@[simp] theorem refillAll_faults (s : State) : (refillAll s).faults = s.faults :=
  foldl_keeps (fun s : State => s.faults) (fun s i => by simp) _ s
@[simp] theorem refillAll_link (s : State) : (refillAll s).link = s.link :=
  foldl_keeps (fun s : State => s.link) (fun s i => by simp) _ s
@[simp] theorem refillAll_freeCount (s : State) : (refillAll s).freeCount = s.freeCount :=
  foldl_keeps (fun s : State => s.freeCount) (fun s i => by simp) _ s
@[simp] theorem refillAll_pending (s : State) : (refillAll s).pending = s.pending :=
  foldl_keeps (fun s : State => s.pending) (fun s i => by simp) _ s
@[simp] theorem refillAll_engine_runState (s : State) :
    (refillAll s).engine.runState = s.engine.runState :=
  foldl_keeps (fun s : State => s.engine.runState) (fun s i => by simp) _ s
@[simp] theorem refillAll_engine_queue (s : State) : (refillAll s).engine.queue = s.engine.queue :=
  foldl_keeps (fun s : State => s.engine.queue) (fun s i => by simp) _ s
@[simp] theorem refillAll_engine_expected (s : State) :
    (refillAll s).engine.expected = s.engine.expected :=
  foldl_keeps (fun s : State => s.engine.expected) (fun s i => by simp) _ s
@[simp] theorem refillAll_engine_courseNumber (s : State) :
    (refillAll s).engine.courseNumber = s.engine.courseNumber :=
  foldl_keeps (fun s : State => s.engine.courseNumber) (fun s i => by simp) _ s

/-! ### grantPreparer -/

@[simp] theorem grantPreparer_inReset (s : State) (sys : Fin 4) :
    (grantPreparer s sys).inReset = s.inReset :=
  by unfold grantPreparer; split <;> simp
@[simp] theorem grantPreparer_geometry (s : State) (sys : Fin 4) :
    (grantPreparer s sys).geometry = s.geometry :=
  by unfold grantPreparer; split <;> simp
@[simp] theorem grantPreparer_tracker (s : State) (sys : Fin 4) :
    (grantPreparer s sys).tracker = s.tracker :=
  by unfold grantPreparer; split <;> simp
@[simp] theorem grantPreparer_engine (s : State) (sys : Fin 4) :
    (grantPreparer s sys).engine = s.engine :=
  by unfold grantPreparer; split <;> simp
@[simp] theorem grantPreparer_zones (s : State) (sys : Fin 4) :
    (grantPreparer s sys).zones = s.zones :=
  by unfold grantPreparer; split <;> simp
@[simp] theorem grantPreparer_back (s : State) (sys : Fin 4) :
    (grantPreparer s sys).back = s.back :=
  by unfold grantPreparer; split <;> simp
@[simp] theorem grantPreparer_carriers (s : State) (sys : Fin 4) :
    (grantPreparer s sys).carriers = s.carriers :=
  by unfold grantPreparer; split <;> simp
@[simp] theorem grantPreparer_pins (s : State) (sys : Fin 4) :
    (grantPreparer s sys).pins = s.pins :=
  by unfold grantPreparer; split <;> simp
@[simp] theorem grantPreparer_faults (s : State) (sys : Fin 4) :
    (grantPreparer s sys).faults = s.faults :=
  by unfold grantPreparer; split <;> simp
@[simp] theorem grantPreparer_link (s : State) (sys : Fin 4) :
    (grantPreparer s sys).link = s.link :=
  by unfold grantPreparer; split <;> simp
@[simp] theorem grantPreparer_freeCount (s : State) (sys : Fin 4) :
    (grantPreparer s sys).freeCount = s.freeCount :=
  by unfold grantPreparer; split <;> simp
@[simp] theorem grantPreparer_pending (s : State) (sys : Fin 4) :
    (grantPreparer s sys).pending = s.pending :=
  by unfold grantPreparer; split <;> simp
@[simp] theorem grantPreparer_store_memory (s : State) (sys : Fin 4) :
    (grantPreparer s sys).store.memory = s.store.memory :=
  by unfold grantPreparer; split <;> simp
@[simp] theorem grantPreparer_store_tiles (s : State) (sys : Fin 4) :
    (grantPreparer s sys).store.tiles = s.store.tiles :=
  by unfold grantPreparer; split <;> simp
@[simp] theorem grantPreparer_store_cursor (s : State) (sys : Fin 4) :
    (grantPreparer s sys).store.cursor = s.store.cursor :=
  by unfold grantPreparer; split <;> simp
@[simp] theorem grantPreparer_store_buffer (s : State) (sys : Fin 4) :
    (grantPreparer s sys).store.buffer = s.store.buffer :=
  by unfold grantPreparer; split <;> simp

/-! ### grantLoader -/

@[simp] theorem grantLoader_inReset (s : State) : (grantLoader s).inReset = s.inReset := by
  unfold grantLoader; split
  · rfl
  · split <;> rfl
  · rfl
@[simp] theorem grantLoader_geometry (s : State) : (grantLoader s).geometry = s.geometry := by
  unfold grantLoader; split
  · rfl
  · split <;> rfl
  · rfl
@[simp] theorem grantLoader_tracker (s : State) : (grantLoader s).tracker = s.tracker := by
  unfold grantLoader; split
  · rfl
  · split <;> rfl
  · rfl
@[simp] theorem grantLoader_engine (s : State) : (grantLoader s).engine = s.engine := by
  unfold grantLoader; split
  · rfl
  · split <;> rfl
  · rfl
@[simp] theorem grantLoader_zones (s : State) : (grantLoader s).zones = s.zones := by
  unfold grantLoader; split
  · rfl
  · split <;> rfl
  · rfl
@[simp] theorem grantLoader_front (s : State) : (grantLoader s).front = s.front := by
  unfold grantLoader; split
  · rfl
  · split <;> rfl
  · rfl
@[simp] theorem grantLoader_back (s : State) : (grantLoader s).back = s.back := by
  unfold grantLoader; split
  · rfl
  · split <;> rfl
  · rfl
@[simp] theorem grantLoader_carriers (s : State) : (grantLoader s).carriers = s.carriers := by
  unfold grantLoader; split
  · rfl
  · split <;> rfl
  · rfl
@[simp] theorem grantLoader_pins (s : State) : (grantLoader s).pins = s.pins := by
  unfold grantLoader; split
  · rfl
  · split <;> rfl
  · rfl
@[simp] theorem grantLoader_faults (s : State) : (grantLoader s).faults = s.faults := by
  unfold grantLoader; split
  · rfl
  · split <;> rfl
  · rfl
@[simp] theorem grantLoader_freeCount (s : State) : (grantLoader s).freeCount = s.freeCount := by
  unfold grantLoader; split
  · rfl
  · split <;> rfl
  · rfl
@[simp] theorem grantLoader_pending (s : State) : (grantLoader s).pending = s.pending := by
  unfold grantLoader; split
  · rfl
  · split <;> rfl
  · rfl
@[simp] theorem grantLoader_store_memory (s : State) :
    (grantLoader s).store.memory = s.store.memory := by
  unfold grantLoader; split
  · rfl
  · split <;> rfl
  · rfl
@[simp] theorem grantLoader_store_tiles (s : State) : (grantLoader s).store.tiles = s.store.tiles := by
  unfold grantLoader; split
  · rfl
  · split <;> rfl
  · rfl
@[simp] theorem grantLoader_store_cursor (s : State) :
    (grantLoader s).store.cursor = s.store.cursor := by
  unfold grantLoader; split
  · rfl
  · split <;> rfl
  · rfl
@[simp] theorem grantLoader_store_buffer (s : State) :
    (grantLoader s).store.buffer = s.store.buffer := by
  unfold grantLoader; split
  · rfl
  · split <;> rfl
  · rfl
@[simp] theorem grantLoader_link_ready (s : State) : (grantLoader s).link.ready = s.link.ready := by
  unfold grantLoader; split
  · rfl
  · split <;> rfl
  · rfl
@[simp] theorem grantLoader_link_restarting (s : State) :
    (grantLoader s).link.restarting = s.link.restarting := by
  unfold grantLoader; split
  · rfl
  · split <;> rfl
  · rfl
@[simp] theorem grantLoader_link_reply (s : State) : (grantLoader s).link.reply = s.link.reply := by
  unfold grantLoader; split
  · rfl
  · split <;> rfl
  · rfl
@[simp] theorem grantLoader_link_dropped (s : State) :
    (grantLoader s).link.dropped = s.link.dropped := by
  unfold grantLoader; split
  · rfl
  · split <;> rfl
  · rfl
@[simp] theorem grantLoader_link_transfer (s : State) :
    (grantLoader s).link.transfer = s.link.transfer := by
  unfold grantLoader; split
  · rfl
  · split <;> rfl
  · rfl
@[simp] theorem grantLoader_link_shifted (s : State) :
    (grantLoader s).link.shifted = s.link.shifted := by
  unfold grantLoader; split
  · rfl
  · split <;> rfl
  · rfl

/-! ### grant -/

@[simp] theorem grant_inReset (s : State) : (grant s).inReset = s.inReset := by
  unfold grant; split
  · rfl
  · split <;> simp
@[simp] theorem grant_geometry (s : State) : (grant s).geometry = s.geometry := by
  unfold grant; split
  · rfl
  · split <;> simp
@[simp] theorem grant_tracker (s : State) : (grant s).tracker = s.tracker := by
  unfold grant; split
  · rfl
  · split <;> simp
@[simp] theorem grant_engine (s : State) : (grant s).engine = s.engine := by
  unfold grant; split
  · rfl
  · split <;> simp
@[simp] theorem grant_zones (s : State) : (grant s).zones = s.zones := by
  unfold grant; split
  · rfl
  · split <;> simp
@[simp] theorem grant_back (s : State) : (grant s).back = s.back := by
  unfold grant; split
  · rfl
  · split <;> simp
@[simp] theorem grant_carriers (s : State) : (grant s).carriers = s.carriers := by
  unfold grant; split
  · rfl
  · split <;> simp
@[simp] theorem grant_pins (s : State) : (grant s).pins = s.pins := by
  unfold grant; split
  · rfl
  · split <;> simp
@[simp] theorem grant_faults (s : State) : (grant s).faults = s.faults := by
  unfold grant; split
  · rfl
  · split <;> simp
@[simp] theorem grant_freeCount (s : State) : (grant s).freeCount = s.freeCount := by
  unfold grant; split
  · rfl
  · split <;> simp
@[simp] theorem grant_pending (s : State) : (grant s).pending = s.pending := by
  unfold grant; split
  · rfl
  · split <;> simp
@[simp] theorem grant_store_memory (s : State) : (grant s).store.memory = s.store.memory := by
  unfold grant; split
  · rfl
  · split <;> simp
@[simp] theorem grant_store_tiles (s : State) : (grant s).store.tiles = s.store.tiles := by
  unfold grant; split
  · rfl
  · split <;> simp
@[simp] theorem grant_store_cursor (s : State) : (grant s).store.cursor = s.store.cursor := by
  unfold grant; split
  · rfl
  · split <;> simp
@[simp] theorem grant_store_buffer (s : State) : (grant s).store.buffer = s.store.buffer := by
  unfold grant; split
  · rfl
  · split <;> simp
@[simp] theorem grant_link_ready (s : State) : (grant s).link.ready = s.link.ready := by
  unfold grant; split
  · rfl
  · split <;> simp
@[simp] theorem grant_link_restarting (s : State) : (grant s).link.restarting = s.link.restarting := by
  unfold grant; split
  · rfl
  · split <;> simp
@[simp] theorem grant_link_reply (s : State) : (grant s).link.reply = s.link.reply := by
  unfold grant; split
  · rfl
  · split <;> simp
@[simp] theorem grant_link_dropped (s : State) : (grant s).link.dropped = s.link.dropped := by
  unfold grant; split
  · rfl
  · split <;> simp
@[simp] theorem grant_link_transfer (s : State) : (grant s).link.transfer = s.link.transfer := by
  unfold grant; split
  · rfl
  · split <;> simp
@[simp] theorem grant_link_shifted (s : State) : (grant s).link.shifted = s.link.shifted := by
  unfold grant; split
  · rfl
  · split <;> simp

/-! ### pump -/

@[simp] theorem pump_inReset (s : State) : (pump s).inReset = s.inReset := by simp [pump]
@[simp] theorem pump_geometry (s : State) : (pump s).geometry = s.geometry := by simp [pump]
@[simp] theorem pump_tracker (s : State) : (pump s).tracker = s.tracker := by simp [pump]
@[simp] theorem pump_zones (s : State) : (pump s).zones = s.zones := by simp [pump]
@[simp] theorem pump_carriers (s : State) : (pump s).carriers = s.carriers := by simp [pump]
@[simp] theorem pump_pins (s : State) : (pump s).pins = s.pins := by simp [pump]
@[simp] theorem pump_faults (s : State) : (pump s).faults = s.faults := by simp [pump]
@[simp] theorem pump_freeCount (s : State) : (pump s).freeCount = s.freeCount := by simp [pump]
@[simp] theorem pump_pending (s : State) : (pump s).pending = s.pending := by simp [pump]
@[simp] theorem pump_engine_runState (s : State) : (pump s).engine.runState = s.engine.runState :=
  by simp [pump]
@[simp] theorem pump_engine_queue (s : State) : (pump s).engine.queue = s.engine.queue :=
  by simp [pump]
@[simp] theorem pump_engine_expected (s : State) : (pump s).engine.expected = s.engine.expected :=
  by simp [pump]
@[simp] theorem pump_engine_courseNumber (s : State) :
    (pump s).engine.courseNumber = s.engine.courseNumber :=
  by simp [pump]
@[simp] theorem pump_store_memory (s : State) : (pump s).store.memory = s.store.memory :=
  by simp [pump]
@[simp] theorem pump_store_tiles (s : State) : (pump s).store.tiles = s.store.tiles :=
  by simp [pump]
@[simp] theorem pump_store_cursor (s : State) : (pump s).store.cursor = s.store.cursor :=
  by simp [pump]
@[simp] theorem pump_store_buffer (s : State) : (pump s).store.buffer = s.store.buffer :=
  by simp [pump]
@[simp] theorem pump_link_ready (s : State) : (pump s).link.ready = s.link.ready := by simp [pump]
@[simp] theorem pump_link_restarting (s : State) : (pump s).link.restarting = s.link.restarting :=
  by simp [pump]
@[simp] theorem pump_link_reply (s : State) : (pump s).link.reply = s.link.reply := by simp [pump]
@[simp] theorem pump_link_dropped (s : State) : (pump s).link.dropped = s.link.dropped :=
  by simp [pump]
@[simp] theorem pump_link_transfer (s : State) : (pump s).link.transfer = s.link.transfer :=
  by simp [pump]
@[simp] theorem pump_link_shifted (s : State) : (pump s).link.shifted = s.link.shifted :=
  by simp [pump]

/-! ### openFrame -/

@[simp] theorem openFrame_inReset (s : State) : (openFrame s).inReset = s.inReset := rfl
@[simp] theorem openFrame_geometry (s : State) : (openFrame s).geometry = s.geometry := rfl
@[simp] theorem openFrame_tracker (s : State) : (openFrame s).tracker = s.tracker := rfl
@[simp] theorem openFrame_engine (s : State) : (openFrame s).engine = s.engine := rfl
@[simp] theorem openFrame_zones (s : State) : (openFrame s).zones = s.zones := rfl
@[simp] theorem openFrame_store (s : State) : (openFrame s).store = s.store := rfl
@[simp] theorem openFrame_front (s : State) : (openFrame s).front = s.front := rfl
@[simp] theorem openFrame_back (s : State) : (openFrame s).back = s.back := rfl
@[simp] theorem openFrame_carriers (s : State) : (openFrame s).carriers = s.carriers := rfl
@[simp] theorem openFrame_pins (s : State) : (openFrame s).pins = s.pins := rfl
@[simp] theorem openFrame_faults (s : State) : (openFrame s).faults = s.faults := rfl
@[simp] theorem openFrame_freeCount (s : State) : (openFrame s).freeCount = s.freeCount := rfl
@[simp] theorem openFrame_pending (s : State) : (openFrame s).pending = s.pending := rfl
@[simp] theorem openFrame_link_ready (s : State) : (openFrame s).link.ready = s.link.ready := rfl
@[simp] theorem openFrame_link_request (s : State) : (openFrame s).link.request = s.link.request :=
  rfl
@[simp] theorem openFrame_link_restarting (s : State) :
    (openFrame s).link.restarting = s.link.restarting :=
  rfl
@[simp] theorem openFrame_link_shifted (s : State) : (openFrame s).link.shifted = s.link.shifted :=
  rfl

/-! ### dropFrame -/

@[simp] theorem dropFrame_inReset (s : State) : (dropFrame s).inReset = s.inReset := rfl
@[simp] theorem dropFrame_geometry (s : State) : (dropFrame s).geometry = s.geometry := rfl
@[simp] theorem dropFrame_tracker (s : State) : (dropFrame s).tracker = s.tracker := rfl
@[simp] theorem dropFrame_engine (s : State) : (dropFrame s).engine = s.engine := rfl
@[simp] theorem dropFrame_zones (s : State) : (dropFrame s).zones = s.zones := rfl
@[simp] theorem dropFrame_store (s : State) : (dropFrame s).store = s.store := rfl
@[simp] theorem dropFrame_front (s : State) : (dropFrame s).front = s.front := rfl
@[simp] theorem dropFrame_back (s : State) : (dropFrame s).back = s.back := rfl
@[simp] theorem dropFrame_carriers (s : State) : (dropFrame s).carriers = s.carriers := rfl
@[simp] theorem dropFrame_pins (s : State) : (dropFrame s).pins = s.pins := rfl
@[simp] theorem dropFrame_faults (s : State) : (dropFrame s).faults = s.faults := rfl
@[simp] theorem dropFrame_freeCount (s : State) : (dropFrame s).freeCount = s.freeCount := rfl
@[simp] theorem dropFrame_pending (s : State) : (dropFrame s).pending = s.pending := rfl
@[simp] theorem dropFrame_link_ready (s : State) : (dropFrame s).link.ready = s.link.ready := rfl
@[simp] theorem dropFrame_link_request (s : State) : (dropFrame s).link.request = s.link.request :=
  rfl
@[simp] theorem dropFrame_link_restarting (s : State) :
    (dropFrame s).link.restarting = s.link.restarting :=
  rfl
@[simp] theorem dropFrame_link_reply (s : State) : (dropFrame s).link.reply = s.link.reply := rfl
@[simp] theorem dropFrame_link_shifted (s : State) : (dropFrame s).link.shifted = s.link.shifted :=
  rfl

/-! ### formReply -/

@[simp] theorem formReply_inReset (tag : Byte) (lost : Bool) (p : State × Answer) :
    (formReply tag lost p).inReset = p.1.inReset :=
  rfl
@[simp] theorem formReply_geometry (tag : Byte) (lost : Bool) (p : State × Answer) :
    (formReply tag lost p).geometry = p.1.geometry :=
  rfl
@[simp] theorem formReply_tracker (tag : Byte) (lost : Bool) (p : State × Answer) :
    (formReply tag lost p).tracker = p.1.tracker :=
  rfl
@[simp] theorem formReply_engine (tag : Byte) (lost : Bool) (p : State × Answer) :
    (formReply tag lost p).engine = p.1.engine :=
  rfl
@[simp] theorem formReply_zones (tag : Byte) (lost : Bool) (p : State × Answer) :
    (formReply tag lost p).zones = p.1.zones :=
  rfl
@[simp] theorem formReply_store (tag : Byte) (lost : Bool) (p : State × Answer) :
    (formReply tag lost p).store = p.1.store :=
  rfl
@[simp] theorem formReply_front (tag : Byte) (lost : Bool) (p : State × Answer) :
    (formReply tag lost p).front = p.1.front :=
  rfl
@[simp] theorem formReply_back (tag : Byte) (lost : Bool) (p : State × Answer) :
    (formReply tag lost p).back = p.1.back :=
  rfl
@[simp] theorem formReply_carriers (tag : Byte) (lost : Bool) (p : State × Answer) :
    (formReply tag lost p).carriers = p.1.carriers :=
  rfl
@[simp] theorem formReply_pins (tag : Byte) (lost : Bool) (p : State × Answer) :
    (formReply tag lost p).pins = p.1.pins :=
  rfl
@[simp] theorem formReply_faults (tag : Byte) (lost : Bool) (p : State × Answer) :
    (formReply tag lost p).faults = p.1.faults :=
  rfl
@[simp] theorem formReply_freeCount (tag : Byte) (lost : Bool) (p : State × Answer) :
    (formReply tag lost p).freeCount = p.1.freeCount :=
  rfl
@[simp] theorem formReply_pending (tag : Byte) (lost : Bool) (p : State × Answer) :
    (formReply tag lost p).pending = p.1.pending :=
  rfl
@[simp] theorem formReply_link_ready (tag : Byte) (lost : Bool) (p : State × Answer) :
    (formReply tag lost p).link.ready = p.1.link.ready :=
  rfl
@[simp] theorem formReply_link_request (tag : Byte) (lost : Bool) (p : State × Answer) :
    (formReply tag lost p).link.request = p.1.link.request :=
  rfl
@[simp] theorem formReply_link_restarting (tag : Byte) (lost : Bool) (p : State × Answer) :
    (formReply tag lost p).link.restarting = p.1.link.restarting :=
  rfl
@[simp] theorem formReply_link_dropped (tag : Byte) (lost : Bool) (p : State × Answer) :
    (formReply tag lost p).link.dropped = p.1.link.dropped :=
  rfl
@[simp] theorem formReply_link_transfer (tag : Byte) (lost : Bool) (p : State × Answer) :
    (formReply tag lost p).link.transfer = p.1.link.transfer :=
  rfl
@[simp] theorem formReply_link_shifted (tag : Byte) (lost : Bool) (p : State × Answer) :
    (formReply tag lost p).link.shifted = p.1.link.shifted :=
  rfl

end Sys2Proof.Machine
end

