-- ==== Sys2Proof/Laws/Memory.lean ====
section
/-! SUPPORT. The laws of pixel memory: a stored word reads back, other words stay, and the canonical form is
kept. -/

namespace Sys2Proof.Machine

/-- The canonical form as a proposition. -/
theorem Memory.wf_iff (m : Memory) :
    Memory.wf m = true ↔ m.Pairwise (fun a b => a.1 < b.1) ∧ ∀ c ∈ m, c.2 ≠ blankWord := by
  simp [Memory.wf]

/-- The empty memory has the canonical form. -/
theorem Memory.wf_nil : Memory.wf [] = true := by decide

/-- The tail of a canonical memory is canonical. -/
theorem Memory.wf_tail {c : Nat × PixelWord} {m : Memory} (h : Memory.wf (c :: m) = true) :
    Memory.wf m = true := by
  rw [Memory.wf_iff] at h ⊢
  exact ⟨(List.pairwise_cons.1 h.1).2, fun d hd => h.2 d (List.mem_cons_of_mem _ hd)⟩

/-- A word below every listed one reads as blank. -/
theorem readWord_of_lt {m : Memory} {a : Nat} (h : ∀ c ∈ m, a < c.1) : readWord m a = blankWord := by
  induction m with
  | nil => rfl
  | cons c m ih =>
    obtain ⟨b, v⟩ := c
    have hb : a < b := h (b, v) (by simp)
    simp only [readWord, if_neg (by omega : ¬a = b)]
    exact ih fun d hd => h d (by simp [hd])

/-- The addresses after a store are the old ones and the stored one. -/
theorem storeWord_mem {m : Memory} {a : Nat} {w : PixelWord} {c : Nat × PixelWord}
    (h : c ∈ storeWord m a w) : c ∈ m ∨ (c = (a, w) ∧ w ≠ blankWord) := by
  induction m with
  | nil => simp only [storeWord] at h; split at h <;> simp_all
  | cons d m ih =>
    obtain ⟨b, v⟩ := d
    simp only [storeWord] at h
    split at h
    · split at h <;> simp_all
      tauto
    · split at h
      · split at h <;> simp_all
        tauto
      · rcases List.mem_cons.1 h with h | h
        · simp [h]
        · rcases ih h with h | h <;> simp [h]

/-- Storing keeps the canonical form. -/
theorem storeWord_wf {m : Memory} (a : Nat) (w : PixelWord) (h : Memory.wf m = true) :
    Memory.wf (storeWord m a w) = true := by
  rw [Memory.wf_iff]
  refine ⟨?_, ?_⟩
  · induction m with
    | nil => simp only [storeWord]; split <;> simp
    | cons d m ih =>
      obtain ⟨b, v⟩ := d
      have ht := ih (Memory.wf_tail h)
      rw [Memory.wf_iff, List.pairwise_cons] at h
      obtain ⟨⟨hb, hp⟩, -⟩ := h
      simp only [storeWord]
      split
      · split
        · exact List.pairwise_cons.2 ⟨hb, hp⟩
        · refine List.pairwise_cons.2 ⟨fun c hc => ?_, List.pairwise_cons.2 ⟨hb, hp⟩⟩
          rcases List.mem_cons.1 hc with rfl | hc
          · assumption
          · have := hb c hc; simp only at this ⊢; omega
      · split
        · rename_i _ hab
          split
          · exact hp
          · exact List.pairwise_cons.2 ⟨fun c hc => hab ▸ hb c hc, hp⟩
        · refine List.pairwise_cons.2 ⟨fun c hc => ?_, ht⟩
          rcases storeWord_mem hc with hc | ⟨rfl, -⟩
          · exact hb c hc
          · simp only; omega
  · intro c hc
    rcases storeWord_mem hc with hc | ⟨rfl, hw⟩
    · exact ((Memory.wf_iff m).1 h).2 c hc
    · exact hw

/-- What a store leaves at each word. -/
theorem readWord_storeWord {m : Memory} (a : Nat) (w : PixelWord) (h : Memory.wf m = true)
    (x : Nat) : readWord (storeWord m a w) x = if x = a then w else readWord m x := by
  induction m with
  | nil =>
    simp only [storeWord]
    split <;> simp_all [readWord]
  | cons d m ih =>
    obtain ⟨b, v⟩ := d
    have ih := ih (Memory.wf_tail h)
    rw [Memory.wf_iff, List.pairwise_cons] at h
    obtain ⟨⟨hb, -⟩, -⟩ := h
    have blank : ∀ y, y ≤ b → readWord m y = blankWord := fun y hy =>
      readWord_of_lt fun c hc => by have := hb c hc; simp only at this; omega
    simp only [storeWord]
    split
    · rename_i hab
      split
      · subst_vars
        by_cases hx : x = a
        · subst hx
          simp [readWord, if_neg (by omega : ¬x = b), blank x (by omega)]
        · simp [hx]
      · simp [readWord]
    · split
      · rename_i _ hab
        subst hab
        split
        · subst_vars
          by_cases hx : x = a
          · simp [hx, blank a (Nat.le_refl a)]
          · simp [readWord, hx]
        · simp only [readWord]
          split <;> rfl
      · simp only [readWord, ih]
        by_cases hx : x = b
        · rw [hx, if_pos rfl, if_pos rfl, if_neg (by omega : ¬b = a)]
        · simp [hx]

/-- A stored word reads back. -/
theorem readWord_storeWord_same {m : Memory} (a : Nat) (w : PixelWord) (h : Memory.wf m = true) :
    readWord (storeWord m a w) a = w := by simp [readWord_storeWord a w h]

/-- A store leaves every other word. -/
theorem readWord_storeWord_other {m : Memory} {a x : Nat} (w : PixelWord)
    (h : Memory.wf m = true) (hx : x ≠ a) : readWord (storeWord m a w) x = readWord m x := by
  simp [readWord_storeWord a w h, hx]

/-- R23: a word just written has good parity. -/
theorem parityPasses_goodWord (d : BitVec 64) : parityPasses (goodWord d) = true := by
  simp [parityPasses, goodWord]

/-- R24: the blank word is the zero word with good parity. -/
theorem goodWord_zero : goodWord 0 = blankWord := by simp [goodWord, blankWord, oddOnes]

end Sys2Proof.Machine
end

