-- ==== Sys2Proof/Laws/Ops.lean ====
section
/-! SUPPORT. What each shared operation does, said once: a meaning's proof cites these and unfolds none of
them. -/

namespace Sys2Proof.Machine

/-! ### Requests -/

/-- Out of reset the link takes a request exactly when it is not busy. -/
theorem linkBusy_of_takesRequests {s : State} (h : takesRequests s) : linkBusy s = false := by
  simp [linkBusy, Link.executing, h]

/-- A request that the link takes is carried out by its block and answered. -/
theorem serve_of_takesRequests {s : State} (h : takesRequests s) (tag : Byte)
    (op : State → State × Answer) :
    serve tag op s = formReply tag (unreadReply s) (op (openFrame s)) := by
  simp [serve, linkBusy_of_takesRequests h, h.1]

/-- A request that the link takes leaves what its block leaves, with its answer in the reply slot. -/
theorem serve_eq {s : State} (h : takesRequests s) (tag : Byte) (op : State → State × Answer) :
    serve tag op s = { (op (openFrame s)).1 with
      link := { (op (openFrame s)).1.link with
        reply := some ⟨⟨tag, (op (openFrame s)).2.code, s.link.replyReady,
          (op (openFrame s)).2.payload⟩, false⟩ } } := by
  rw [serve_of_takesRequests h]
  rfl

/-- A request refused by its block leaves the part as it was. -/
theorem serve_refused {s : State} (h : takesRequests s) {tag : Byte} {op : State → State × Answer}
    {code : ResultCode} (e : op (openFrame s) = (openFrame s, refuse code)) :
    serve tag op s = refusedWith s tag code := by
  rw [serve_eq h, e]
  rfl

/-- A request carried out, where the block writes nothing of the link. -/
theorem serve_answered {s t : State} (h : takesRequests s) {tag : Byte}
    {op : State → State × Answer} {payload : List Byte}
    (e : op (openFrame s) = ({ t with link := (openFrame s).link }, okWith payload)) :
    serve tag op s = answeredWith s t tag payload := by
  rw [serve_eq h, e]
  rfl

/-- Everything a request can do: nothing in reset, a drop while the link is busy, else its answer. -/
theorem serve_cases (tag : Byte) (op : State → State × Answer) (s : State) :
    (s.inReset = true ∧ serve tag op s = s) ∨
    (s.inReset = false ∧ linkBusy s = true ∧ serve tag op s = dropFrame s) ∨
    (s.inReset = false ∧ linkBusy s = false ∧
      serve tag op s = formReply tag (unreadReply s) (op (openFrame s))) := by
  unfold serve
  cases s.inReset <;> cases linkBusy s <;> simp

/-- An event in reset and out of it. -/
theorem whenOn_eq (f : State → State) (s : State) :
    whenOn f s = if s.inReset then s else f s := rfl

/-! ### Occurrences -/

/-- No occurrence is arranged into none. -/
@[simp] theorem arrange_nil (n : Nat) : arrange n [] = [] := rfl

/-- One occurrence stands alone in every order. -/
@[simp] theorem arrange_singleton (n : Nat) (r : Report) : arrange n [r] = [r] := rfl

/-- Inserting keeps the members. -/
theorem mem_insertRanked {n : Nat} {x y : Report × Nat} {l : List (Report × Nat)} :
    y ∈ insertRanked n x l ↔ y = x ∨ y ∈ l := by
  induction l with
  | nil => simp [insertRanked]
  | cons z l ih =>
    simp only [insertRanked]
    split
    · simp
    · simp only [List.mem_cons, ih]; tauto

/-- Arranging loses no occurrence and adds none. -/
theorem mem_arrange {n : Nat} {r : Report} {l : List Report} : r ∈ arrange n l ↔ r ∈ l := by
  have key : ∀ (m : List (Report × Nat)) (y : Report × Nat),
      y ∈ m.foldr (insertRanked n) [] ↔ y ∈ m := by
    intro m y
    induction m with
    | nil => simp
    | cons x m ih => simp [mem_insertRanked, ih]
  simp only [arrange, List.mem_map, key]
  constructor
  · rintro ⟨y, hy, rfl⟩
    exact List.fst_mem_of_mem_zipIdx hy
  · intro h
    obtain ⟨i, hi, rfl⟩ := List.mem_iff_getElem.1 h
    exact ⟨(l[i], i), by simp [List.mem_zipIdx_iff_getElem?, hi], rfl⟩

/-- Taking no occurrence changes nothing. -/
@[simp] theorem takeReports_nil (s : State) : takeReports s [] = s := rfl

/-- Taking one occurrence. -/
theorem takeReports_singleton (s : State) (r : Report) :
    takeReports s [r] = takeReport s.bumpFree r := rfl

/-- R160: the record of the kind reported. -/
theorem noteReport_records_same (s : State) (r : Report) :
    (noteReport s r).faults.records[r.kind.number] =
      some (raiseRecord s.faults.records[r.kind.number] (contextOf s r)
        (s.faults.policy.stops r.kind && s.engine.runState.running)) := by
  simp [noteReport]

/-- R160: the records of the other kinds. -/
theorem noteReport_records_other (s : State) (r : Report) (i : Fin 11) (h : i ≠ r.kind.number) :
    (noteReport s r).faults.records[i] = s.faults.records[i] := by
  have h' : r.kind.number.val ≠ i.val := fun e => h (Fin.ext e.symm)
  simp [noteReport, h']

/-- R159: a record that an occurrence leaves counts 1 to 255. -/
theorem raiseRecord_count (o : Option FaultRecord) (c : Context) (b : Bool) :
    1 ≤ (raiseRecord o c b).count ∧ (raiseRecord o c b).count ≤ 255 := by
  cases o with
  | none => simp [raiseRecord]
  | some r => simp only [raiseRecord]; omega

/-- R159: an occurrence keeps the counts of present records in 1 to 255. -/
theorem noteReport_recordLaw {s : State} (h : recordLaw s) (r : Report) :
    recordLaw (noteReport s r) := by
  intro i q hq
  by_cases hi : i = r.kind.number
  · subst hi
    rw [noteReport_records_same] at hq
    cases hq
    exact raiseRecord_count _ _ _
  · rw [noteReport_records_other s r i hi] at hq
    exact h i q hq

/-! ### The course abort -/

/-- R76: a course abort leaves HELD with no plan. -/
@[simp] theorem courseAbort_engine (s : State) :
    (courseAbort s).engine = { s.engine with runState := .held, course := none, queue := [] } := by
  simp [courseAbort]

/-- R132: every channel gives up its plan at a course abort. -/
@[simp] theorem courseAbort_front (s : State) :
    (courseAbort s).front = s.front.map Channel.giveUp := by
  simp [courseAbort, giveUpChannels]

/-- R132: every channel gives up its plan at a course abort. -/
@[simp] theorem courseAbort_back (s : State) :
    (courseAbort s).back = s.back.map Channel.giveUp := by
  simp [courseAbort, giveUpChannels]

/-- R155: a pin that is raised stands UP, and the others stay. -/
theorem raisePin_pins (s : State) (sys : Fin 4) :
    (raisePin s sys).1.pins = s.pins.set sys { s.pins[sys] with state := .up } := by
  unfold raisePin
  split
  · rename_i h
    ext i hi : 1
    simp only [Vector.getElem_set]
    split
    · rename_i e
      subst e
      change _ = ({ s.pins[sys] with state := PinState.up } : Pin)
      rw [← h]
      rfl
    · rfl
  · simp [setPinState]
  · dsimp only
    split <;> split <;> simp [setPinState]

/-- R155: every pin is UP after a course abort. -/
theorem raisePins_up (s : State) (sys : Fin 4) : (raisePins s).1.pins[sys].state = .up := by
  have step : ∀ (t : State) (i j : Fin 4), (raisePin t i).1.pins[j].state =
      if j = i then .up else t.pins[j].state := by
    intro t i j
    rw [raisePin_pins]
    by_cases h : j = i
    · subst h; simp
    · have h' : i.val ≠ j.val := fun e => h (Fin.ext e.symm)
      simp [h, h']
  have list : List.finRange 4 = [0, 1, 2, 3] := by decide
  simp only [raisePins, list, List.foldl_cons, List.foldl_nil, step]
  revert sys
  intro sys
  fin_cases sys <;> simp

/-- R155: every pin is UP after a course abort. -/
theorem courseAbort_pins_up (s : State) (sys : Fin 4) : (courseAbort s).pins[sys].state = .up := by
  have h : (courseAbort s).pins = (raisePins s).1.pins := by simp [courseAbort]
  rw [h]
  exact raisePins_up s sys

/-! ### Application of pending parts -/

/-- R63: an application leaves the places of other zones. -/
theorem applyZone_other (s : State) (i j : Fin 32) (h : j ≠ i) :
    (applyZone s i).zones.places[j] = s.zones.places[j] := by
  have h' : i.val ≠ j.val := fun e => h (Fin.ext e.symm)
  have set_other : ∀ z, (setZone s i z).zones.places[j] = s.zones.places[j] := fun z => by
    simp [setZone, h']
  unfold applyZone
  split
  case h_4 => dsimp only; split <;> simpa using set_other _
  all_goals first | rfl | simpa using set_other _

/-- R63: an application leaves no pending part in its own place. -/
theorem applyZone_same (s : State) (i : Fin 32) (z : Zone)
    (h : (applyZone s i).zones.places[i] = some z) : z.hasPending = false := by
  have set_same : ∀ z, (setZone s i z).zones.places[i] = z := fun z => by simp [setZone]
  unfold applyZone at h
  split at h
  case h_1 hz => simp [State.zone?] at hz; simp_all
  case h_2 hz =>
    simp only [State.zone?, Fin.getElem_fin] at hz h
    rw [h] at hz
    cases hz
    rfl
  case h_3 => rw [set_same] at h; cases h; rfl
  case h_4 =>
    dsimp only at h
    split at h <;>
      simp only [addReference_zones, dropReference_zones, set_same] at h <;> cases h <;> rfl
  case h_5 =>
    simp only [dropPendingTile_zones, dropReference_zones, set_same] at h
    cases h

/-- R62: after an application no zone has a pending part and no mark is pending. -/
theorem applyPendingParts_nothingPending (s : State) : nothingPending (applyPendingParts s) := by
  have fold : ∀ (l : List (Fin 32)) (t : State) (i : Fin 32),
      (i ∈ l ∨ ∀ z, t.zones.places[i] = some z → z.hasPending = false) →
      ∀ z, (l.foldl applyZone t).zones.places[i] = some z → z.hasPending = false := by
    intro l
    induction l with
    | nil => intro t i h; simpa using h
    | cons a l ih =>
      intro t i h
      apply ih
      by_cases hl : i ∈ l
      · exact .inl hl
      · refine .inr ?_
        by_cases ha : i = a
        · subst ha; exact fun z hz => applyZone_same t i z hz
        · rw [applyZone_other t a i ha]
          rcases h with h | h
          · simp [ha, hl] at h
          · exact h
  refine ⟨fun i z hz => ?_, ?_⟩
  · simp only [applyPendingParts, completeMark_zones_places] at hz
    exact fold _ s i (.inl (List.mem_finRange i)) z hz
  · simp only [applyPendingParts, completeMark]
    split
    · rfl
    · assumption

/-! ### Plans -/

/-- R131: a channel that gives up its plan. -/
theorem giveUp_gaveUp (ch : Channel) : gaveUp ch ch.giveUp := by
  simp [gaveUp, Channel.giveUp]

/-- R86, R155: what a stop does to the engine: nothing, or a course abort. -/
theorem takeReport_engine (s : State) (r : Report) :
    (takeReport s r).engine = s.engine ∨
    (takeReport s r).engine = { s.engine with runState := .held, course := none, queue := [] } := by
  unfold takeReport
  split
  · right; simp
  · left; simp

/-- R75: an always-stop occurrence in a run state that can be aborted leads to HELD with no plan. -/
theorem takeReport_stops {s : State} {r : Report} (h : s.faults.policy.stops r.kind = true)
    (ha : s.engine.runState.abortable = true) :
    (takeReport s r).engine = { s.engine with runState := .held, course := none, queue := [] } := by
  simp [takeReport, h, ha]

end Sys2Proof.Machine
end

