-- ==== Sys2Proof/Laws/Abort.lean ====
section
/-! SUPPORT. What the application of pending parts, the course abort and one occurrence do, said once. -/

namespace Sys2Proof.Machine

set_option Elab.async false

/-! ### Tile shapes -/

/-- A reference count is no part of a tile's shape. -/
theorem setTile_shape {s : State} {i : Fin 64} {t u : Tile} (h : s.store.tiles[i] = some t)
    (e : u.shape = t.shape) (j : Fin 64) :
    (setTile s i (some u)).store.tiles[j].map Tile.shape = s.store.tiles[j].map Tile.shape := by
  by_cases hj : j = i
  · subst hj
    simp only [Fin.getElem_fin] at h
    simp [setTile, h, e]
  · have : i.val ≠ j.val := fun e => hj (Fin.ext e.symm)
    simp [setTile, this]

/-- A reference gained changes no shape. -/
@[simp] theorem addReference_shape (s : State) (i j : Fin 64) :
    (addReference s i).store.tiles[j].map Tile.shape = s.store.tiles[j].map Tile.shape := by
  unfold addReference
  split
  · rename_i t h
    exact setTile_shape (t := t) (u := { t with references := t.references + 1 }) h rfl j
  · rfl

/-- A reference lost changes no shape. -/
@[simp] theorem dropReference_shape (s : State) (i j : Fin 64) :
    (dropReference s i).store.tiles[j].map Tile.shape = s.store.tiles[j].map Tile.shape := by
  unfold dropReference
  split
  · rename_i t h
    exact setTile_shape (t := t) (u := { t with references := t.references - 1 }) h rfl j
  · rfl

/-- A zone change changes no shape. -/
@[simp] theorem setZone_shape (s : State) (i : Fin 32) (z : Option Zone) (j : Fin 64) :
    (setZone s i z).store.tiles[j].map Tile.shape = s.store.tiles[j].map Tile.shape := rfl

/-- A pending tile dropped changes no shape. -/
@[simp] theorem dropPendingTile_shape (s : State) (p : PendingFields) (j : Fin 64) :
    (dropPendingTile s p).store.tiles[j].map Tile.shape = s.store.tiles[j].map Tile.shape := by
  unfold dropPendingTile
  split
  · exact dropReference_shape s _ j
  · rfl

/-- An application of one zone changes no shape. -/
@[simp] theorem applyZone_shape (s : State) (i : Fin 32) (j : Fin 64) :
    (applyZone s i).store.tiles[j].map Tile.shape = s.store.tiles[j].map Tile.shape := by
  unfold applyZone
  split
  case h_4 =>
    dsimp only
    split
    · rw [addReference_shape, dropReference_shape, dropReference_shape, setZone_shape]
    · rfl
  case h_5 => rw [dropPendingTile_shape, dropReference_shape, setZone_shape]
  all_goals rfl

/-- The width of a tile is part of its shape. -/
theorem widthOf_of_shape {s t : State}
    (h : ∀ i : Fin 64, t.store.tiles[i].map Tile.shape = s.store.tiles[i].map Tile.shape)
    (i : Fin 64) : t.widthOf i = s.widthOf i := by
  have hi := h i
  simp only [State.widthOf, State.tile?]
  cases ht : t.store.tiles[i] <;> cases hs : s.store.tiles[i] <;> rw [ht, hs] at hi <;>
    simp_all [Tile.shape]

/-- What is applied to a zone depends on the shapes of the tiles alone. -/
theorem appliedZone_of_shape {s t : State}
    (h : ∀ i : Fin 64, t.store.tiles[i].map Tile.shape = s.store.tiles[i].map Tile.shape)
    (z : Option Zone) : appliedZone t z = appliedZone s z := by
  have w := widthOf_of_shape h
  rcases z with _ | (f | ⟨c, _ | p⟩ | ⟨c, p⟩) <;> simp [appliedZone, w]

/-! ### The application of pending parts (R62, R63, R67) -/

/-- R63: the place of a zone whose pending part is applied. -/
theorem applyZone_place (s : State) (i : Fin 32) :
    (applyZone s i).zones.places[i] = appliedZone s s.zones.places[i] := by
  have set_same : ∀ z, (setZone s i z).zones.places[i] = z := fun z => by simp [setZone]
  unfold applyZone
  split <;> rename_i h <;> simp only [State.zone?] at h
  case h_1 => rw [h]; rfl
  case h_2 => rw [h]; rfl
  case h_3 => rw [set_same, h]; rfl
  case h_4 =>
    rw [h]
    dsimp only
    split
    · simp only [addReference_zones, dropReference_zones, set_same]; rfl
    · rw [set_same]; rfl
  case h_5 =>
    rw [h]
    simp only [dropPendingTile_zones, dropReference_zones, set_same]
    rfl

/-- R62: the places after the application of a list of zones. -/
theorem foldl_applyZone_place (l : List (Fin 32)) (hl : l.Nodup) (s : State) (i : Fin 32) :
    (l.foldl applyZone s).zones.places[i] =
      if i ∈ l then appliedZone s s.zones.places[i] else s.zones.places[i] := by
  induction l generalizing s with
  | nil => simp
  | cons a l ih =>
    rw [List.foldl_cons, ih (List.nodup_cons.1 hl).2]
    have shape := appliedZone_of_shape (s := s) (t := applyZone s a)
      (fun j => applyZone_shape s a j)
    by_cases ha : i = a
    · subst ha
      have : i ∉ l := (List.nodup_cons.1 hl).1
      simp only [this, List.mem_cons, true_or, if_true, if_false]
      exact applyZone_place s i
    · simp only [List.mem_cons, ha, false_or, shape, applyZone_other s a i ha]

/-- R62: no shape changes in an application. -/
@[simp] theorem applyPendingParts_shape (s : State) (j : Fin 64) :
    (applyPendingParts s).store.tiles[j].map Tile.shape = s.store.tiles[j].map Tile.shape := by
  have h := foldl_keeps (fun t : State => t.store.tiles[j].map Tile.shape)
    (f := applyZone) (fun t i => applyZone_shape t i j) (List.finRange 32) s
  simpa [applyPendingParts] using h

/-- R62, R64, R67: what an application of every pending part does to the zones and the mark. -/
theorem applyPendingParts_partsApplied (s : State) : partsApplied s (applyPendingParts s) := by
  have fold : ∀ i : Fin 32, ((List.finRange 32).foldl applyZone s).zones.places[i] =
      appliedZone s s.zones.places[i] := fun i => by
    rw [foldl_applyZone_place _ (List.nodup_finRange 32)]
    simp
  have mark := foldl_keeps (fun t : State => t.zones.pendingMark) (f := applyZone)
    (fun t i => applyZone_zones_pendingMark t i) (List.finRange 32) s
  have last := foldl_keeps (fun t : State => t.zones.lastMark) (f := applyZone)
    (fun t i => applyZone_zones_lastMark t i) (List.finRange 32) s
  have faults := foldl_keeps (fun t : State => t.faults) (f := applyZone)
    (fun t i => applyZone_faults t i) (List.finRange 32) s
  refine ⟨fun i => by simpa [applyPendingParts] using fold i,
    (applyPendingParts_nothingPending s).2, ?_, ?_⟩ <;>
  · simp only [applyPendingParts, completeMark, mark]
    cases s.zones.pendingMark <;> simp [setMarkDone, last, faults]

/-- R42: the store is kept by an application, but for the reference counts. -/
theorem applyPendingParts_storeKept (s : State) : storeKept s (applyPendingParts s) :=
  ⟨by simp, by simp, by simp, by simp, by simp, by simp, applyPendingParts_shape s⟩

/-! ### The course abort (R76) -/

/-- R107: the correction that an abort or a completion applies. -/
theorem applyCorrection_tracker (s : State) :
    (applyCorrection s).1.tracker = correctedTracker s.geometry s.tracker := by
  unfold applyCorrection correctedTracker
  cases h : s.tracker.correction with
  | none => rfl
  | some d =>
    simp only [within, Geometry.positionLimit]
    by_cases h1 : s.tracker.position + d < -1024
    · have : ¬ (-1024 ≤ s.tracker.position + d) := by omega
      simp [h1, this]
    · by_cases h2 : (s.geometry.bedWidth : Int) + 1023 < s.tracker.position + d
      · have : ¬ (s.tracker.position + d ≤ (s.geometry.bedWidth : Int) + 1023) := by omega
        simp [h1, h2, this]
      · have : -1024 ≤ s.tracker.position + d := by omega
        have : s.tracker.position + d ≤ (s.geometry.bedWidth : Int) + 1023 := by omega
        simp [*]

/-- R155: every pin is raised, its force and sense kept. -/
theorem raisePins_pins (s : State) (sys : Fin 4) :
    (raisePins s).1.pins[sys] = { s.pins[sys] with state := .up } := by
  have step : ∀ (t : State) (i j : Fin 4), (raisePin t i).1.pins[j] =
      if j = i then { t.pins[j] with state := .up } else t.pins[j] := by
    intro t i j
    rw [raisePin_pins]
    by_cases h : j = i
    · subst h; simp
    · have h' : i.val ≠ j.val := fun e => h (Fin.ext e.symm)
      simp [h, h']
  have list : List.finRange 4 = [0, 1, 2, 3] := by decide
  simp only [raisePins, list, List.foldl_cons, List.foldl_nil, step]
  fin_cases sys <;> simp

/-- R155: a raised pin reports a lost carrier or nothing. -/
theorem raisePin_reports (s : State) (sys : Fin 4) :
    ∀ r ∈ (raisePin s sys).2, r.kind = .carrierLost := by
  unfold raisePin
  split
  · simp
  · simp
  · dsimp only
    split <;> split <;> simp

/-- R155: the pins report lost carriers alone. -/
theorem raisePins_reports (s : State) : ∀ r ∈ (raisePins s).2, r.kind = .carrierLost := by
  have key : ∀ (l : List (Fin 4)) (p : State × List Report),
      (∀ r ∈ p.2, r.kind = .carrierLost) →
      ∀ r ∈ (l.foldl (fun p sys => ((raisePin p.1 sys).1, p.2 ++ (raisePin p.1 sys).2)) p).2,
        r.kind = .carrierLost := by
    intro l
    induction l with
    | nil => intro p h; simpa using h
    | cons a l ih =>
      intro p h
      apply ih
      intro r hr
      rcases List.mem_append.1 hr with hr | hr
      · exact h r hr
      · exact raisePin_reports _ _ r hr
  exact key _ (s, []) (by simp)

/-- R107: a correction reports a clamp or nothing. -/
theorem applyCorrection_reports (s : State) : ∀ r ∈ (applyCorrection s).2, r.kind = .encoder := by
  unfold applyCorrection
  split
  · simp
  · dsimp only
    split <;> simp [Report.plain]

/-- R160: records of kinds that no occurrence of a list has stand as they were. -/
theorem foldNotes_records (l : List Report) (s : State) (kind : FaultKind)
    (h : ∀ r ∈ l, r.kind ≠ kind) :
    (l.foldl noteReport s).faults.records[kind.number] = s.faults.records[kind.number] := by
  induction l generalizing s with
  | nil => rfl
  | cons r l ih =>
    rw [List.foldl_cons, ih _ (fun q hq => h q (List.mem_cons_of_mem _ hq))]
    apply noteReport_records_other
    intro e
    have : ∀ a b : FaultKind, a.number = b.number → a = b := by
      intro a b; cases a <;> cases b <;> simp [FaultKind.number]
    exact h r (List.mem_cons_self ..) (this _ _ e).symm

/-- R163: a course abort makes occurrences of two kinds, and of the second only where a correction is
pending. -/
theorem courseAbort_records (s : State) (kind : FaultKind) (hl : kind ≠ .carrierLost)
    (he : kind = .encoder → s.tracker.correction = none) :
    (courseAbort s).faults.records[kind.number] = s.faults.records[kind.number] := by
  unfold courseAbort
  dsimp only
  rw [foldNotes_records]
  · simp
  · intro r hr
    rw [mem_arrange, List.mem_append] at hr
    rcases hr with hr | hr
    · rw [applyCorrection_reports _ r hr]
      intro e
      have hc := he e.symm
      have : (applyPendingParts (giveUpChannels ((raisePins s).1.withEngine { (raisePins s).1.engine
          with runState := .held, course := none, queue := [] }))).tracker.correction = none := by
        simpa using hc
      simp only [applyCorrection, this] at hr
      cases hr
    · obtain ⟨q, hq, rfl⟩ := List.mem_map.1 hr
      have := raisePins_reports s q.1 (List.fst_mem_of_mem_zipIdx hq)
      simp only [Report.at, this]
      exact fun e => hl e.symm

/-- R163: the occurrences that an abort makes itself are of two kinds. -/
theorem courseAbort_recordsKept (s : State) :
    recordsKept s (courseAbort s) [.carrierLost, .encoder] := by
  intro kind hk
  simp only [List.mem_cons, List.not_mem_nil, or_false, not_or] at hk
  exact courseAbort_records s kind hk.1 (fun e => absurd e hk.2)

/-- R76: what a course abort leaves. -/
theorem courseAbort_abortedFrom (s : State) : abortedFrom s (courseAbort s) := by
  have parts := applyPendingParts_partsApplied (giveUpChannels ((raisePins s).1.withEngine
    { (raisePins s).1.engine with runState := .held, course := none, queue := [] }))
  have store := applyPendingParts_storeKept (giveUpChannels ((raisePins s).1.withEngine
    { (raisePins s).1.engine with runState := .held, course := none, queue := [] }))
  have widths : ∀ z, appliedZone (giveUpChannels ((raisePins s).1.withEngine
      { (raisePins s).1.engine with runState := .held, course := none, queue := [] })) z =
      appliedZone s z := fun z => appliedZone_of_shape (fun i => by simp) z
  refine ⟨courseAbort_engine s, ?_, ?_, ?_, ?_, ?_, ?_, ?_, ?_, ?_, ?_, ?_⟩
  · intro sys
    simp only [courseAbort_front, courseAbort_back, Fin.getElem_fin, Vector.getElem_map]
    exact ⟨giveUp_gaveUp _, giveUp_gaveUp _⟩
  · intro sys
    rw [← raisePins_pins]
    simp [courseAbort]
  · obtain ⟨h1, h2, h3, h4⟩ := parts
    refine ⟨fun i => ?_, ?_, ?_, ?_⟩
    · have := h1 i
      rw [widths] at this
      simpa [courseAbort] using this
    · simpa [courseAbort] using h2
    · simpa [courseAbort] using h3
    · simpa [courseAbort] using h4
  · obtain ⟨h1, h2, h3, h4, h5, h6, h7⟩ := store
    refine ⟨?_, ?_, ?_, ?_, ?_, ?_, fun i => ?_⟩
    · simp
    · simp
    · simp
    · simp
    · simp
    · simp
    · simpa [courseAbort] using h7 i
  · simp only [courseAbort, foldNotes_tracker, State.bumpFree]
    rw [applyCorrection_tracker]
    simp
  all_goals simp [courseAbort]

/-! ### One occurrence (R75, R160, R162) -/

/-- R75, R160, R162: one occurrence, of a kind that no course abort reports. -/
theorem takeReports_occurrence (s : State) (r : Report) (hl : r.kind ≠ .carrierLost)
    (he : r.kind = .encoder → s.tracker.correction = none) :
    occurrenceTaken s (takeReports s [r]) r.kind (contextOf s r) := by
  rw [takeReports_singleton]
  constructor
  · intro h
    have : (s.bumpFree.faults.policy.stops r.kind && s.bumpFree.engine.runState.abortable) = false := by
      rw [Bool.eq_false_iff]
      intro e
      rw [Bool.and_eq_true] at e
      exact h e
    rw [takeReport, this]
    rfl
  · intro h
    have e : takeReport s.bumpFree r = courseAbort (noteReport s.bumpFree r) := by
      rw [takeReport, if_pos]
      rw [Bool.and_eq_true]
      exact h
    have a := courseAbort_abortedFrom (noteReport s.bumpFree r)
    have k := courseAbort_recordsKept (noteReport s.bumpFree r)
    rw [e]
    refine ⟨?_, by simp [State.bumpFree], ?_, ?_⟩
    · have w : ∀ z, appliedZone (noteReport s.bumpFree r) z = appliedZone s z := fun z =>
        appliedZone_of_shape (fun i => by simp [State.bumpFree]) z
      unfold abortedFrom allGaveUp partsApplied storeKept at a ⊢
      simp only [w] at a
      simpa [State.bumpFree] using a
    · have same : (courseAbort (noteReport s.bumpFree r)).faults.records[r.kind.number] =
          (noteReport s.bumpFree r).faults.records[r.kind.number] :=
        courseAbort_records _ _ hl (fun e => by simpa [State.bumpFree] using he e)
      unfold raisedFrom
      rw [same, noteReport_records_same]
      have hr : s.engine.runState.running = true := by
        have := h.2
        revert this
        cases s.engine.runState <;> simp [RunState.abortable, RunState.running]
      simp [State.bumpFree, h.1, hr, contextOf]
    · intro kind hk
      simp only [List.mem_cons, List.not_mem_nil, or_false, not_or] at hk
      rw [k kind (by simp [hk])]
      apply noteReport_records_other
      intro e
      have : ∀ a b : FaultKind, a.number = b.number → a = b := by
        intro a b; cases a <;> cases b <;> simp [FaultKind.number]
      exact hk.1 (this _ _ e)

end Sys2Proof.Machine
end

