-- ==== Sys2Proof/Laws/Link.lean ====
section
/-! SUPPORT. What the transfers and the received frames do, and what an early grant of the store port can do,
each said once. -/

namespace Sys2Proof.Machine

/-! ### Transfers (R185, R193) -/

/-- The record that a write request leaves is the one the statements name. -/
theorem recordWrite_eq (count : Nat) (s : State) : recordWrite count s = writtenOut s count := by
  unfold recordWrite writtenOut endingTransfer sampleTransfer
  cases s.link.transfer <;> rfl

/-- A transfer without effect shifts out the byte of its fall and one byte for every other it shifts in. -/
@[simp] theorem quietOut_length (status : Byte) (shiftedIn : List Byte) :
    (quietOut status shiftedIn).length = shiftedIn.length := by
  cases shiftedIn <;> simp [quietOut]

/-- A read-reply transfer shifts out as many bytes as it shifts in. -/
@[simp] theorem replyOut_length (r : Option Reply) (count : Nat) : (replyOut r count).length = count := by
  cases r <;> simp [replyOut]

/-- Type 2 repeats the status byte. -/
@[simp] theorem quietOut_status (status : Byte) (rest : List Byte) :
    quietOut status (2 :: rest) = List.replicate (rest.length + 1) status := by
  simp [quietOut, List.replicate_succ]

/-- The transfers write the link alone. -/
theorem statusOnly_withLink (shiftedIn : List Byte) (s : State) :
    ∃ l, statusOnly shiftedIn s = s.withLink l ∧ l.transfer = none ∧ l.reply = s.link.reply ∧
      l.request = s.link.request ∧ l.ready = s.link.ready ∧ l.restarting = s.link.restarting ∧
      l.dropped = s.link.dropped := ⟨_, rfl, rfl, rfl, rfl, rfl, rfl, rfl⟩

/-! ### Received frames (R188, R191) -/

/-- A frame that comes out of the bytes of a write request. -/
theorem writeRequest_frame {s : State} (h : s.inReset = false) {w : WriteTransfer} (hb : w.bytes ≠ []) :
    writeRequest w s = receiveFrame (readFrame w.first w.bytes) (writtenOut s w.bytes.length) := by
  have : w.bytes.isEmpty = false := by simpa using hb
  simp [writeRequest, h, this, recordWrite_eq]

/-- A frame is dropped, or else taken: dropped exactly while the link is busy, but for a Restart. -/
theorem receiveFrame_cases (v : FrameVerdict) (s : State) :
    (linkBusy s = true ∧ isRestart v = false ∧ receiveFrame v s = .next (dropFrame s)) ∨
    ((linkBusy s = false ∨ isRestart v = true) ∧ receiveFrame v s = takeFrame v s) := by
  unfold receiveFrame
  cases linkBusy s <;> cases isRestart v <;> simp

/-- A request that a frame carries is carried out by the command's own meaning. -/
theorem handOver_eq {i : Instr} {b : RequestBody} (h : requestBody i = some b) (s : State) :
    handOver i s = exec i s := by
  cases i <;> first | rfl | cases h

/-! ### The early grant (log 31) -/

/-- A grant before what an event has still to take is the grant itself, or nothing yet. -/
theorem grantEarly_cases (s : State) : grantEarly s = s ∨ grantEarly s = pump s := by
  unfold grantEarly
  split
  · exact .inr rfl
  · exact .inl rfl

end Sys2Proof.Machine
end

