-- ==== Sys2Proof/Laws/PerInstr.lean ====
section
/-! SUPPORT. What holds of every command as syntax, command by command: a well-formed request fits in a
frame (R187). -/

namespace Sys2Proof.Laws

/-- R187: the payload of a well-formed request has at most 72 bytes. -/
def FitsFrame.Statement (i : Instr) : Prop :=
  i.wf = true → ∀ b, requestBody i = some b → b.payload.length ≤ 72

/-- A field of one byte sends at most one. -/
theorem length_bytesOfOptByte (b : Option Byte) : (bytesOfOptByte b).length ≤ 1 := by
  cases b <;> simp [bytesOfOptByte]

/-- A field of two bytes sends at most two. -/
theorem length_bytesOfOptHalf (h : Option Half) : (bytesOfOptHalf h).length ≤ 2 := by
  cases h <;> simp [bytesOfOptHalf, bytesOfHalf]

/-- A group of n bytes sends at most n. -/
theorem length_bytesOfOptBytes {n : Nat} (v : Option (Vector Byte n)) :
    (bytesOfOptBytes v).length ≤ n := by
  cases v <;> simp [bytesOfOptBytes]

/-- A list of two-byte values sends two bytes each. -/
theorem length_flatMap_bytesOfHalf (l : List Half) : (l.flatMap bytesOfHalf).length = 2 * l.length := by
  induction l with
  | nil => rfl
  | cons x l ih => simp only [List.flatMap_cons, List.length_append, ih, List.length_cons]; simp [bytesOfHalf]; omega

/-- A group of n two-byte values sends at most 2n bytes. -/
theorem length_bytesOfOptHalves {n : Nat} (v : Option (Vector Half n)) :
    (bytesOfOptHalves v).length ≤ 2 * n := by
  cases v with
  | none => simp [bytesOfOptHalves]
  | some v => simp only [bytesOfOptHalves, length_flatMap_bytesOfHalf, Vector.length_toList, le_refl]

/-- R199: three bytes for each entry. -/
theorem length_entries (l : List EntryPayload) :
    (l.flatMap (fun e => [e.system, e.zone, e.packed])).length = 3 * l.length := by
  induction l with
  | nil => rfl
  | cons x l ih => simp only [List.flatMap_cons, List.length_append, ih, List.length_cons]; simp; omega

/-- R187 for READ_STATUS. -/
theorem FitsFrame.readStatus (tag flags : Byte) :
    FitsFrame.Statement (.readStatus tag flags) := by
  intro _ b hb
  simp only [requestBody, Option.some.injEq] at hb
  subst hb
  simp

/-- R187 for READ_COURSE. -/
theorem FitsFrame.readCourse (tag : Byte) :
    FitsFrame.Statement (.readCourse tag) := by
  intro _ b hb
  simp only [requestBody, Option.some.injEq] at hb
  subst hb
  simp

/-- R187 for READ_FAULT. -/
theorem FitsFrame.readFault (tag kind : Byte) :
    FitsFrame.Statement (.readFault tag kind) := by
  intro _ b hb
  simp only [requestBody, Option.some.injEq] at hb
  subst hb
  simp

/-- R187 for CLEAR_FAULT. -/
theorem FitsFrame.clearFault (tag kind : Byte) :
    FitsFrame.Statement (.clearFault tag kind) := by
  intro _ b hb
  simp only [requestBody, Option.some.injEq] at hb
  subst hb
  simp

/-- R187 for SET_POLICY. -/
theorem FitsFrame.setPolicy (tag : Byte) (flags : Vector Byte 20) :
    FitsFrame.Statement (.setPolicy tag flags) := by
  intro _ b hb
  simp only [requestBody, Option.some.injEq] at hb
  subst hb
  simp

/-- R187 for CONFIGURE. -/
theorem FitsFrame.configure (tag : Byte) (fields : ConfigurePayload) :
    FitsFrame.Statement (.configure tag fields) := by
  intro _ b hb
  simp only [requestBody, Option.some.injEq] at hb
  subst hb
  have h1 := length_bytesOfOptHalf fields.bedWidth
  have h2 := length_bytesOfOptByte fields.systems
  have h3 := length_bytesOfOptByte fields.pulses
  have h4 := length_bytesOfOptHalf fields.homeNeedle
  have h5 := length_bytesOfOptByte fields.homeTolerance
  have h6 := length_bytesOfOptHalves fields.pointOffsets
  have h7 := length_bytesOfOptHalves fields.pinOffsets
  have h8 := length_bytesOfOptByte fields.engageLead
  have h9 := length_bytesOfOptByte fields.catchWindow
  have h10 := length_bytesOfOptByte fields.overshoot
  have h11 := length_bytesOfOptByte fields.clearance
  have h12 := length_bytesOfOptHalf fields.fastLimit
  have h13 := length_bytesOfOptHalf fields.clearLimit
  have h14 := length_bytesOfOptByte fields.arbiterMode
  have h15 := length_bytesOfOptByte fields.urgency
  have h16 := length_bytesOfOptHalf fields.coilPolarities
  have h17 := length_bytesOfOptByte fields.pinPolarities
  simp only [encodeConfigure, List.length_cons, List.length_append]
  omega

/-- R187 for BEGIN_RUN. -/
theorem FitsFrame.beginRun (tag : Byte) :
    FitsFrame.Statement (.beginRun tag) := by
  intro _ b hb
  simp only [requestBody, Option.some.injEq] at hb
  subst hb
  simp

/-- R187 for END_RUN. -/
theorem FitsFrame.endRun (tag : Byte) :
    FitsFrame.Statement (.endRun tag) := by
  intro _ b hb
  simp only [requestBody, Option.some.injEq] at hb
  subst hb
  simp

/-- R187 for RESUME. -/
theorem FitsFrame.resume (tag : Byte) :
    FitsFrame.Statement (.resume tag) := by
  intro _ b hb
  simp only [requestBody, Option.some.injEq] at hb
  subst hb
  simp

/-- R187 for ABORT_COURSE. -/
theorem FitsFrame.abortCourse (tag : Byte) :
    FitsFrame.Statement (.abortCourse tag) := by
  intro _ b hb
  simp only [requestBody, Option.some.injEq] at hb
  subst hb
  simp

/-- R187 for FORCE_OUTPUTS. -/
theorem FitsFrame.forceOutputs (tag target system bed value : Byte) :
    FitsFrame.Statement (.forceOutputs tag target system bed value) := by
  intro _ b hb
  simp only [requestBody, Option.some.injEq] at hb
  subst hb
  simp

/-- R187 for RESTART. -/
theorem FitsFrame.restart (request : RestartRequest) :
    FitsFrame.Statement (.restart request) := by
  intro _ b hb
  simp only [requestBody, Option.some.injEq] at hb
  subst hb
  simp

/-- R187 for DEFINE_TILE. -/
theorem FitsFrame.defineTile (tag id : Byte) (width height base : Half) :
    FitsFrame.Statement (.defineTile tag id width height base) := by
  intro _ b hb
  simp only [requestBody, Option.some.injEq] at hb
  subst hb
  simp [bytesOfHalf]

/-- R187 for RETIRE_TILE. -/
theorem FitsFrame.retireTile (tag id : Byte) :
    FitsFrame.Statement (.retireTile tag id) := by
  intro _ b hb
  simp only [requestBody, Option.some.injEq] at hb
  subst hb
  simp

/-- R187 for READ_TILE. -/
theorem FitsFrame.readTile (tag id : Byte) :
    FitsFrame.Statement (.readTile tag id) := by
  intro _ b hb
  simp only [requestBody, Option.some.injEq] at hb
  subst hb
  simp

/-- R187 for LOAD_TILE. -/
theorem FitsFrame.loadTile (tag id : Byte) (row : Half) :
    FitsFrame.Statement (.loadTile tag id row) := by
  intro _ b hb
  simp only [requestBody, Option.some.injEq] at hb
  subst hb
  simp [bytesOfHalf]

/-- R187 for TILE_DATA. -/
theorem FitsFrame.tileData (tag : Byte) (bytes : List Byte) :
    FitsFrame.Statement (.tileData tag bytes) := by
  intro h b hb
  simp only [requestBody, Option.some.injEq] at hb
  subst hb
  simp only [Instr.wf, tileDataFits, Bool.and_eq_true, decide_eq_true_eq] at h
  exact h.2

/-- R187 for READ_TILE_WORDS. -/
theorem FitsFrame.readTileWords (tag id : Byte) (row : Half) (word count : Byte) :
    FitsFrame.Statement (.readTileWords tag id row word count) := by
  intro _ b hb
  simp only [requestBody, Option.some.injEq] at hb
  subst hb
  simp [bytesOfHalf]

/-- R187 for DEFINE_ZONE. -/
theorem FitsFrame.defineZone (tag id : Byte) (fields : ZonePayload) :
    FitsFrame.Statement (.defineZone tag id fields) := by
  intro _ b hb
  simp only [requestBody, Option.some.injEq] at hb
  subst hb
  simp [encodeZone, bytesOfHalf]

/-- R187 for EDIT_ZONE. -/
theorem FitsFrame.editZone (tag id : Byte) (fields : EditPayload) :
    FitsFrame.Statement (.editZone tag id fields) := by
  intro _ b hb
  simp only [requestBody, Option.some.injEq] at hb
  subst hb
  have h1 := length_bytesOfOptHalf fields.left
  have h2 := length_bytesOfOptHalf fields.right
  have h3 := length_bytesOfOptByte fields.tile
  have h4 := length_bytesOfOptHalf fields.anchor
  have h5 := length_bytesOfOptHalf fields.shift
  have h6 := length_bytesOfOptHalf fields.row
  have h7 := length_bytesOfOptByte fields.repeats
  have h8 := length_bytesOfOptByte fields.colours
  have h9 := length_bytesOfOptByte fields.floatLimit
  have h10 := length_bytesOfOptByte fields.backing
  have h11 := length_bytesOfOptByte fields.mirror
  have h12 := length_bytesOfOptBytes fields.map
  simp only [encodeEdit, List.length_cons, List.length_append]
  omega

/-- R187 for RETIRE_ZONE. -/
theorem FitsFrame.retireZone (tag id : Byte) :
    FitsFrame.Statement (.retireZone tag id) := by
  intro _ b hb
  simp only [requestBody, Option.some.injEq] at hb
  subst hb
  simp

/-- R187 for READ_ZONE. -/
theorem FitsFrame.readZone (tag id : Byte) :
    FitsFrame.Statement (.readZone tag id) := by
  intro _ b hb
  simp only [requestBody, Option.some.injEq] at hb
  subst hb
  simp

/-- R187 for MARK. -/
theorem FitsFrame.mark (tag markTag : Byte) :
    FitsFrame.Statement (.mark tag markTag) := by
  intro _ b hb
  simp only [requestBody, Option.some.injEq] at hb
  subst hb
  simp

/-- R187 for INSTALL_CARRIER. -/
theorem FitsFrame.installCarrier (tag id : Byte) (position : Half) (yarn : Byte) :
    FitsFrame.Statement (.installCarrier tag id position yarn) := by
  intro _ b hb
  simp only [requestBody, Option.some.injEq] at hb
  subst hb
  simp [bytesOfHalf]

/-- R187 for PLACE_CARRIER. -/
theorem FitsFrame.placeCarrier (tag id : Byte) (position : Half) :
    FitsFrame.Statement (.placeCarrier tag id position) := by
  intro _ b hb
  simp only [requestBody, Option.some.injEq] at hb
  subst hb
  simp [bytesOfHalf]

/-- R187 for REMOVE_CARRIER. -/
theorem FitsFrame.removeCarrier (tag id : Byte) :
    FitsFrame.Statement (.removeCarrier tag id) := by
  intro _ b hb
  simp only [requestBody, Option.some.injEq] at hb
  subst hb
  simp

/-- R187 for READ_CARRIER. -/
theorem FitsFrame.readCarrier (tag id : Byte) :
    FitsFrame.Statement (.readCarrier tag id) := by
  intro _ b hb
  simp only [requestBody, Option.some.injEq] at hb
  subst hb
  simp

/-- R187 for QUEUE_COURSE. -/
theorem FitsFrame.queueCourse (tag : Byte) (plan : PlanPayload) :
    FitsFrame.Statement (.queueCourse tag plan) := by
  intro h b hb
  simp only [requestBody, Option.some.injEq] at hb
  subst hb
  have hl := length_entries plan.entries
  simp only [Instr.wf, entriesFit, decide_eq_true_eq] at h
  simp only [encodePlan, bytesOfHalf, List.length_cons, List.length_append, List.length_nil, hl]
  omega

/-- R187 for DROP_PLANS. -/
theorem FitsFrame.dropPlans (tag : Byte) :
    FitsFrame.Statement (.dropPlans tag) := by
  intro _ b hb
  simp only [requestBody, Option.some.injEq] at hb
  subst hb
  simp

/-- R187 for TRANSFER_START. -/
theorem FitsFrame.transferStart :
    FitsFrame.Statement .transferStart := by
  intro _ b hb
  cases hb

/-- R187 for WRITE_REQUEST. -/
theorem FitsFrame.writeRequest (transfer : WriteTransfer) :
    FitsFrame.Statement (.writeRequest transfer) := by
  intro _ b hb
  cases hb

/-- R187 for READ_REPLY. -/
theorem FitsFrame.readReply (count : Nat) :
    FitsFrame.Statement (.readReply count) := by
  intro _ b hb
  cases hb

/-- R187 for STATUS_ONLY. -/
theorem FitsFrame.statusOnly (shiftedIn : List Byte) :
    FitsFrame.Statement (.statusOnly shiftedIn) := by
  intro _ b hb
  cases hb

/-- R187 for RESET. -/
theorem FitsFrame.reset :
    FitsFrame.Statement .reset := by
  intro _ b hb
  cases hb

/-- R187 for POWER_ON. -/
theorem FitsFrame.powerOn (levels : InputLevels) :
    FitsFrame.Statement (.powerOn levels) := by
  intro _ b hb
  cases hb

/-- R187 for STORE_ACCESS_COMPLETE. -/
theorem FitsFrame.storeAccessComplete (upset : PixelWord) :
    FitsFrame.Statement (.storeAccessComplete upset) := by
  intro _ b hb
  cases hb

/-- R187 for ENCODER_COUNT. -/
theorem FitsFrame.encoderCount (line : EncoderLine) (home : Bool) (micros : Nat) :
    FitsFrame.Statement (.encoderCount line home micros) := by
  intro _ b hb
  cases hb

/-- R187 for ILLEGAL_TRANSITION. -/
theorem FitsFrame.illegalTransition (home : Bool) :
    FitsFrame.Statement (.illegalTransition home) := by
  intro _ b hb
  cases hb

/-- R187 for HOME_EDGE. -/
theorem FitsFrame.homeEdge :
    FitsFrame.Statement .homeEdge := by
  intro _ b hb
  cases hb

/-- R187 for CLEAR_TIME_EXPIRY. -/
theorem FitsFrame.clearTimeExpiry :
    FitsFrame.Statement .clearTimeExpiry := by
  intro _ b hb
  cases hb

/-- R187 for HALT_ASSERTION. -/
theorem FitsFrame.haltAssertion :
    FitsFrame.Statement .haltAssertion := by
  intro _ b hb
  cases hb

/-- R187 for HALT_RELEASE. -/
theorem FitsFrame.haltRelease :
    FitsFrame.Statement .haltRelease := by
  intro _ b hb
  cases hb

/-- R187 for CATCH_RISE. -/
theorem FitsFrame.catchRise (pin : Fin 4) :
    FitsFrame.Statement (.catchRise pin) := by
  intro _ b hb
  cases hb

/-- R187 for CATCH_FALL. -/
theorem FitsFrame.catchFall (pin : Fin 4) :
    FitsFrame.Statement (.catchFall pin) := by
  intro _ b hb
  cases hb

/-- R187 for CARRIER_MISSED. -/
theorem FitsFrame.carrierMissed (pin : Fin 4) :
    FitsFrame.Statement (.carrierMissed pin) := by
  intro _ b hb
  cases hb

end Sys2Proof.Laws
end

