-- ==== Sys2Proof/Laws/Tracker.lean ====
section
/-! SUPPORT. The tracker's operations in the words of Safety.lean: what a count, a step and the passing of time
do. -/

namespace Sys2Proof.Machine

set_option Elab.async false

/-- R108, R109: time passes. -/
theorem passTime_eq (m : Nat) (s : State) :
    passTime m s = s.withTracker (timePassed s.geometry s.engine.runState m s.tracker) := by
  unfold passTime timePassed windowDrives releaseSlow
  cases h : s.tracker.slow <;> by_cases h2 : s.engine.runState = .setup <;>
    by_cases h3 : s.geometry.clearLimit < s.tracker.sinceStep + m <;> simp [h, h2, h3]

/-- R98, R100: a count is taken. -/
theorem trackCount_eq (g : Geometry) (l : EncoderLine) (home : Bool) (d : Direction) (t : Tracker) :
    trackCount g l home d t = counted g l home d t := by
  unfold trackCount counted toggle phaseAfter
  cases l <;> cases d <;> simp

/-- R100: when a count makes a step. -/
theorem makesStep_iff (g : Geometry) (d : Direction) (p : Nat) :
    makesStep g.pulses d p = true ↔ completesPitch g d p := by
  cases d <;> simp [makesStep, completesPitch]

/-- R100, R108, R109: a step is taken. -/
theorem trackStep_eq (g : Geometry) (r : RunState) (d : Direction) (t : Tracker) :
    trackStep g r d t = stepTaken g r d t := by
  unfold trackStep speedWindow stepTaken windowDrives intervalOf stepped ahead releaseSlow
  by_cases h2 : r = .setup <;> by_cases h3 : min (max t.sinceStep 1) 65535 < g.fastLimit <;>
    by_cases h4 : g.clearLimit < min (max t.sinceStep 1) 65535 <;> cases t.slow <;> cases d <;>
    simp [h2, h3, h4]

/-- R101: the limits of the position range. -/
theorem positionLimit_eq (g : Geometry) (d : Direction) : g.positionLimit d = limitOf g d := by
  cases d <;> rfl

/-- R98: a count out of reset. -/
theorem exec_encoderCount {s : State} (h : s.inReset = false) (line : EncoderLine) (home : Bool)
    (micros : Nat) :
    exec (.encoderCount line home micros) s = .next (
      if makesStep s.geometry.pulses (countAt s line) s.tracker.phase then
        needleStep (countAt s line) (s.withTracker (trackerAtCount s line home micros))
      else s.withTracker (trackerAtCount s line home micros)) := by
  simp only [exec, execEncoderCount, whenOn, h, encoderCount, takeCount, passTime_eq, trackCount_eq,
    Bool.false_eq_true, if_false]
  rfl

/-- R100: a count that makes a step out of reset, away from the limit. -/
theorem exec_encoderCount_step {s : State} {line : EncoderLine} (h : s.inReset = false)
    (hs : makesStepNow s line) (home : Bool) (micros : Nat) :
    exec (.encoderCount line home micros) s = .next (courseNeedleStep (countAt s line)
      (s.withTracker (trackerAtStep s line home micros))) := by
  have position : (trackerAtCount s line home micros).position = s.tracker.position := rfl
  rw [exec_encoderCount h, if_pos ((makesStep_iff _ _ _).2 hs.1), needleStep, if_neg, takeStep,
    trackStep_eq]
  · rfl
  · rw [positionLimit_eq]
    exact hs.2

/-- R101: a count that makes a step out of reset, at the limit. -/
theorem exec_encoderCount_limit {s : State} {line : EncoderLine} (h : s.inReset = false)
    (hs : completesPitch s.geometry (countAt s line) s.tracker.phase)
    (hl : s.tracker.position = limitOf s.geometry (countAt s line)) (home : Bool) (micros : Nat) :
    exec (.encoderCount line home micros) s =
      .next (refuseStep (s.withTracker (trackerAtCount s line home micros))) := by
  rw [exec_encoderCount h, if_pos ((makesStep_iff _ _ _).2 hs), needleStep, if_pos]
  rw [positionLimit_eq]
  exact hl

end Sys2Proof.Machine
end

