-- ==== Sys2Proof/Tests/Slice0.lean ====
section
/-! SUPPORT. The model's own tests: ill-formed terms refused, single commands on small states with results taken
from the spec, and a witness for the hypotheses of each statement. -/

namespace Sys2Proof.Tests
open Sys2Proof.Machine

-- One theorem after another: each `decide +kernel` waits for the kernel, and many waiting at once take memory.
set_option Elab.async false

/-! ### Small states -/

/-- A part whose memory clear is over and which nobody has written to. -/
def awake : State :=
  { State.reset with
    store := { TileStore.reset with inFlight := none }, link := { Link.reset with ready := true } }

/-- The state a command leaves. -/
def run1 (c : Instr) (s : State) : State :=
  match exec c s with
  | .next t => t
  | .fault _ => s
  | .refused _ => s

/-- The code of the reply a request leaves. -/
def codeOf (c : Instr) (s : State) : Option ResultCode := (run1 c s).link.reply.map (·.reply.code)

/-- The payload of the reply a request leaves. -/
def payloadOf (c : Instr) (s : State) : Option (List Byte) :=
  (run1 c s).link.reply.map (·.reply.payload)

/-- A signed two-byte field. -/
def h (x : Int) : Half := BitVec.ofInt 16 x

/-- In a run state, with a course. -/
def inState (s : State) (r : RunState) (k : Option Course) : State :=
  { s with engine := { s.engine with runState := r, course := k } }

/-- With the carriage at a position, referenced, one count short of a step to the right. -/
def carriageAt (s : State) (c : Int) : State :=
  { s with tracker := { s.tracker with position := c, phase := 3, referenced := true } }

/-- With a tile in a place of the directory. -/
def tileAt (s : State) (i : Fin 64) (t : Tile) : State :=
  { s with store := { s.store with tiles := s.store.tiles.set i (some t) } }

/-- With a zone in a place of the table. -/
def zoneAt (s : State) (i : Fin 32) (z : Zone) : State :=
  { s with zones := { s.zones with places := s.zones.places.set i (some z) } }

/-- With a carrier resting. -/
def restingAt (s : State) (c : Fin 16) (x : Int) : State :=
  { s with carriers := s.carriers.set c { state := .resting x, yarn := 7 } }

/-- With every stop-enable clear. -/
def noStops (s : State) : State :=
  { s with faults := { s.faults with policy := { s.faults.policy with
      stopEnable := Vector.replicate 6 false } } }

/-- The tile of section 1.1: 24 columns, 20 rows, from word 0. -/
def tile24 : Tile := { width := 24, height := 20, base := 0, references := 1 }

/-- A colour map whose pixels 0, 1 and 2 show their own slots, and 3 a tuck of slot 0. -/
def map3 : Vector MapEntry 16 :=
  (((Vector.replicate 16 { slot := 0, stitch := .knit }).set 1 { slot := 1, stitch := .knit }).set 2
    { slot := 2, stitch := .knit }).set 3 { slot := 0, stitch := .tuck }

/-- The zone of section 1.1: needles 40 to 159, anchor 40, three colours, float limit 6. -/
def fields40 : ZoneFields where
  left := 40
  right := 159
  tile := 0
  anchor := 40
  shift := 0
  mirror := false
  row := 0
  repeats := 1
  colours := 3
  map := map3
  backing := .birdseye
  floatLimit := 6

/-- Its current part. -/
def part40 : ZonePart :=
  { given := fields40, effective := 16, repeatIndex := 0, backingCounter := 0, served := 0 }

/-- The same piece on needles 200 to 319. -/
def part200 : ZonePart := { part40 with given := { fields40 with left := 200, right := 319 } }

/-- An entry of system 0 for zone 0 with carrier 0 and slot 0. -/
def entry0 : Entry := { system := 0, zone := 0, carrier := 0, slot := 0, back := true }

/-- The run of that entry from a carrier at 30 (R85: engage 30 − 2, release 159 + 4). -/
def run0 (st : Option EntryStatus) : EntryRun :=
  { entry := entry0, rest := 30, engage := 28, release := 163, ordinal := 0, floatCount := 0
    status := st }

/-- A course of that entry. -/
def course0 (st : Option EntryStatus) : Course :=
  { tag := 9, direction := .right, racking := 0, endPosition := 170, runs := [run0 st] }

/-- A part set up for that course, between courses. -/
def setUp : State :=
  restingAt (zoneAt (tileAt awake 0 tile24) 0 (.live part40 none)) 0 30

/-- In a course, the carriage at a position. -/
def knittingAt (c : Int) (st : EntryStatus) : State :=
  carriageAt (inState setUp .knitting (some (course0 (some st)))) c

/-- With the pin of system 0 in a state. -/
def pinIs (s : State) (p : PinState) : State :=
  { s with pins := s.pins.set 0 { s.pins[0] with state := p } }

/-- With an access in flight. -/
def flying (s : State) (a : Access) : State := { s with store := { s.store with inFlight := some a } }

/-- One count to the right from the levels of the reset state. -/
def countRight : Instr := .encoderCount .encA false 250

/-- One count to the left. -/
def countLeft : Instr := .encoderCount .encB false 250

/-! ### Ill-formed terms (R196) -/

/-- A Tile Data payload of no byte is ill-formed, and one of 73; 1 and 72 are not. -/
theorem test_tileData_lengths :
    Instr.wf (.tileData 0 []) = false ∧ Instr.wf (.tileData 0 (List.replicate 73 0)) = false ∧
    Instr.wf (.tileData 0 [0]) = true ∧ Instr.wf (.tileData 0 (List.replicate 72 0)) = true := by
  decide +kernel

/-- A plan of 23 entries is ill-formed; one of 22 is not. -/
theorem test_queueCourse_entries :
    Instr.wf (.queueCourse 0 ⟨0, 0, 0, 0, List.replicate 23 ⟨0, 0, 0⟩⟩) = false ∧
    Instr.wf (.queueCourse 0 ⟨0, 0, 0, 0, List.replicate 22 ⟨0, 0, 0⟩⟩) = true := by decide +kernel

/-- R185: a transfer of type 0 or 1 is no STATUS_ONLY; one of type 2 or 3 is, and one with no whole byte. -/
theorem test_statusOnly_types :
    Instr.wf (.statusOnly [0, 5]) = false ∧ Instr.wf (.statusOnly [1]) = false ∧
    Instr.wf (.statusOnly [2, 5]) = true ∧ Instr.wf (.statusOnly [3]) = true ∧
    Instr.wf (.statusOnly []) = true := by decide +kernel

/-- No word of the table spells a command (the table gives its rows no bits). -/
theorem test_no_word_decodes : decodeTableWord 8 0 = none ∧ decodeTableWord 0 0 = none := by decide

/-! ### The frame (R187, section 10.3) -/

/-- The CRC's check value. -/
theorem test_crc_check_value :
    crc16 [0x31, 0x32, 0x33, 0x34, 0x35, 0x36, 0x37, 0x38, 0x39] = 0x29B1 := by decide +kernel

/-- R196: a frame of code 0x15 and four payload bytes is Force Outputs with target, system, bed and value. -/
theorem test_frame_forceOutputs :
    readFrame noLevels (encodeFrame ⟨0x15, 3, [7, 1, 0, 0]⟩) = .request (.forceOutputs 3 7 1 0 0) := by
  decide +kernel

/-! ### Witnesses: the part as a whole and the link -/

/-- The link of the awake part takes a request. -/
theorem witness_takesRequests : takesRequests awake := by decide +kernel

/-- EveryCommandCompletes: a word that exists, and one that does not. -/
theorem witness_EveryCommandCompletes :
    (∀ a, State.reset.store.inFlight = some a → a.word < memorySize) ∧
    (flying awake (.orphanRead 65535)).store.inFlight = some (.orphanRead 65535) ∧
    65535 < memorySize ∧
    (flying awake (.orphanRead 65536)).store.inFlight = some (.orphanRead 65536) ∧
    memorySize ≤ 65536 ∧ (flying awake (.orphanRead 65536)).inReset = false :=
  ⟨fun a e => by cases e; decide, rfl, by decide, rfl, by decide, rfl⟩

/-- ResetAndPowerOn: a part in reset, and a command that is neither reset nor power-on. -/
theorem witness_ResetAndPowerOn :
    (enterReset State.reset).inReset = true ∧ Instr.homeEdge ≠ .reset ∧
    ∀ l, Instr.homeEdge ≠ .powerOn l := ⟨rfl, by decide, fun l => nofun⟩

/-- MemoryClearRunsThrough: the reset state with a completion for each word. -/
theorem witness_MemoryClearRunsThrough :
    let us := List.replicate memorySize (⟨0, false⟩ : PixelWord)
    let s := { State.reset with pending := us.map Instr.storeAccessComplete }
    s.inReset = false ∧ s.store.inFlight = some (.clear 0) ∧ s.link.ready = false ∧ memoryLaw s ∧
    us.length = memorySize ∧ s.pending = us.map Instr.storeAccessComplete :=
  ⟨rfl, rfl, rfl, rfl, List.length_replicate, rfl⟩

/-- RestartTaken: a ready part, one in its memory clear, and the last access of a Restart. -/
theorem witness_RestartTaken :
    (awake.inReset = false ∧ awake.link.ready = true ∧ awake.link.restarting = false) ∧
    (State.reset.inReset = false ∧ State.reset.link.ready = false) ∧
    65535 < memorySize ∧
    (flying awake (.orphanRead 65535)).store.inFlight = some (.orphanRead 65535) ∧
    (flying awake (.orphanWrite 0 5)).store.inFlight = some (.orphanWrite 0 5) :=
  ⟨⟨rfl, rfl, rfl⟩, ⟨rfl, rfl⟩, by decide, rfl, rfl⟩

/-- A part that executes Read Tile Words, with two words to go. -/
def readingBack : State :=
  { awake with link := { awake.link with request := some ⟨1, false, [3, 4], []⟩ } }

/-- The levels of a first sample with encoder line A high and a carrier caught by pin 2. -/
def someLevels : InputLevels :=
  { noLevels with encA := true, catchSense := (Vector.replicate 4 false).set 2 true }

/-- FramesDropped: each way the link is busy, a frame of one byte, and a Restart frame. -/
theorem witness_FramesDropped :
    (readingBack.inReset = false ∧ readingBack.link.request.isSome = true ∧
      readingBack.link.restarting = false ∧ readingBack.link.ready = true) ∧
    State.reset.link.ready = false ∧
    (readFrame noLevels [1] = .badFrame 0 ∧ ∀ r, FrameVerdict.badFrame 0 ≠ .request (.restart r)) ∧
    ((requestBody (.readCourse 5)).isSome = true ∧ ∀ r, Instr.readCourse 5 ≠ .restart r) ∧
    readFrame someLevels (encodeFrame ⟨0x1F, 7, []⟩) = .request (.restart ⟨7, someLevels⟩) :=
  ⟨by decide +kernel, rfl, ⟨rfl, fun _ => nofun⟩, ⟨rfl, fun _ => nofun⟩, by decide +kernel⟩

/-- FrameRoundTrip: a well-formed request of each variable length, at its longest, and a Restart with the levels
that follow it. -/
theorem witness_FrameRoundTrip :
    Instr.wf (.tileData 1 (List.replicate 72 5)) = true ∧
    (requestBody (.tileData 1 (List.replicate 72 5))).isSome = true ∧
    Instr.wf (.queueCourse 1 ⟨0, 0, 0, 0, List.replicate 22 ⟨0, 0, 0⟩⟩) = true ∧
    (∀ r, Instr.tileData 1 [5] = .restart r → r.first = someLevels) ∧
    ∀ r, Instr.restart ⟨7, someLevels⟩ = .restart r → r.first = someLevels :=
  ⟨by decide +kernel, rfl, by decide +kernel, fun _ => nofun, fun r e => by cases e; rfl⟩

/-- FrameChecks: an unknown code, a length the catalogue has not, the shortest frame and the longest. -/
theorem witness_FrameChecks :
    crc16 (encodeFrame ⟨0x77, 5, []⟩) = 0 ∧ ¬ knownCode 0x77 ∧
    crc16 (encodeFrame ⟨0x01, 5, []⟩) = 0 ∧ knownCode 0x01 ∧ ¬ lengthAllowed 0x01 [] ∧
    lengthAllowed 0x02 [] ∧ (encodeFrame ⟨0x02, 5, []⟩).length = 5 ∧
    lengthAllowed 0x22 (List.replicate 72 0) ∧
    (encodeFrame ⟨0x22, 5, List.replicate 72 0⟩).length = 77 := by
  refine ⟨by decide +kernel, by unfold knownCode; decide, by decide +kernel,
    .inl (by decide), ?_, .inl (by decide), by decide, .inr (.inl ⟨rfl, by decide⟩),
    by decide +kernel⟩
  rintro (e | ⟨e, -⟩ | ⟨e, -⟩ | ⟨e, -⟩ | ⟨e, -⟩) <;> revert e <;> decide

/-- A reply of one byte, and a part that holds it. -/
def replying : State :=
  { awake with link := { awake.link with reply := some ⟨⟨3, .ok, false, [8]⟩, false⟩ } }

/-- Transfers: a transfer that sampled a reply of six bytes and one that sampled none, and transfers of both
forms that are no request. -/
theorem witness_Transfers :
    let sampled := run1 .transferStart replying
    (sampled.inReset = false ∧ sampled.link.transfer = some ⟨3, some ⟨3, .ok, false, [8]⟩⟩) ∧
    (replyFrame ⟨3, .ok, false, [8]⟩).length = 6 ∧
    (([8] : List Byte).length ≤ 72 ∧ (List.replicate 72 (0 : Byte)).length ≤ 72) ∧
    (run1 .transferStart awake).link.transfer = some ⟨1, none⟩ ∧
    (3 ≤ (3 : Byte).toNat ∧ 3 ≤ (255 : Byte).toNat) ∧
    (exec (.statusOnly [255]) sampled matches .next _) = true := by decide +kernel

/-- Transfers: what a write request, a read cut short and a transfer of type 3 shift out (R185). -/
theorem test_shifted_out :
    let sampled := run1 .transferStart replying
    (run1 (.writeRequest ⟨[9, 9], noLevels⟩) sampled).link.shifted = [3, 0, 0] ∧
    (run1 (.readReply 2) sampled).link.shifted = [3, 5, 0] ∧
    (run1 (.statusOnly [3, 9]) sampled).link.shifted = [3, 0] ∧
    (run1 (.statusOnly [2, 9]) sampled).link.shifted = [3, 3] := by decide +kernel

/-- R178, R184: SDO is driven while a transfer is open, and not in reset. -/
theorem test_sdo_driven :
    sdoDriven (run1 .transferStart replying) = true ∧ sdoDriven replying = false ∧
    sdoDriven (run1 .reset (run1 .transferStart replying)) = false := by decide +kernel

/-- R112, R181: a Restart takes the first sample after it as it stands, with no edge and no count. -/
theorem test_restart_takes_the_sample :
    let t := run1 (.restart ⟨7, someLevels⟩) awake
    t.tracker.encA = true ∧ t.tracker.countDirection = none ∧ t.tracker.position = 0 ∧
    t.pins[(2 : Fin 4)].sense = true ∧ t.pins[(2 : Fin 4)].state = .up := by decide +kernel

/-- AttentionFollows: a part out of reset, and one in it. -/
theorem witness_AttentionFollows :
    State.reset.inReset = false ∧ (run1 .reset awake).inReset = true := ⟨rfl, by decide +kernel⟩

/-! ### Witnesses: faults, policy and reads -/

/-- ReadStatusTaken: flags 0, 1 and 2, and system 1 in use and system 2 out of use. -/
theorem witness_ReadStatusTaken :
    takesRequests awake ∧ (0 : Byte).toNat = 0 ∧ (1 : Byte).toNat = 1 ∧ 1 < (2 : Byte).toNat ∧
    awake.inReset = false ∧ awake.tracker.phase < 8 ∧
    (1 : Fin 4).val < awake.geometry.systems ∧ awake.geometry.systems ≤ (2 : Fin 4).val := by
  decide +kernel

/-- ReadsReport: the last id of each kind and the first beyond, with a tile and a zone and without. -/
theorem witness_ReadsReport :
    takesRequests (zoneAt (tileAt awake 63 tile24) 31 (.live part40 none)) ∧
    (10 : Byte).toNat = (10 : Fin 11).val ∧ 11 ≤ (11 : Byte).toNat ∧
    (63 : Byte).toNat = (63 : Fin 64).val ∧ 64 ≤ (64 : Byte).toNat ∧
    (tileAt awake 63 tile24).store.tiles[63] = some tile24 ∧ awake.store.tiles[63] = none ∧
    (31 : Byte).toNat = (31 : Fin 32).val ∧ 32 ≤ (32 : Byte).toNat ∧
    (zoneAt awake 31 (.live part40 none)).zones.places[31] = some (.live part40 none) ∧
    awake.zones.places[31] = none ∧
    (15 : Byte).toNat = (15 : Fin 16).val ∧ 16 ≤ (16 : Byte).toNat := by decide +kernel

/-- A pending part with a field of every size, each at an end of what its bytes hold. -/
def widePending : PendingFields :=
  { PendingFields.empty with
    left := some 65535, anchor := some (-32768), shift := some 32767, row := some 65535
    repeats := some 255, map := some map3 }

/-- ReadReplyLayouts: a tile with the cursor on it and one without, a zone with a pending part whose fields fit,
with a current part and without, a carrier in each state, a course, and a record. -/
theorem witness_ReadReplyLayouts :
    let s := tileAt awake 0 tile24
    ({ s with store := { s.store with cursor := some ⟨0, 40⟩ } }).store.cursor = some ⟨0, 40⟩ ∧
    (∀ c, s.store.cursor = some c → c.tile ≠ 0) ∧
    (Zone.live part40 (some widePending)).pendingPart = widePending ∧
    (Zone.live part40 (some widePending)).current? = some part40 ∧ pendingFits widePending ∧
    (Zone.pending fields40).current? = none ∧
    (awake.carriers[(0 : Fin 16)].state = .absent ∧ setUp.carriers[(0 : Fin 16)].state = .resting 30) ∧
    (knittingAt 50 .fed).engine.course = some (course0 (some .fed)) := by
  refine ⟨rfl, fun _ => nofun, rfl, rfl, ?_, rfl, by decide +kernel, rfl⟩
  unfold pendingFits widePending PendingFields.empty
  refine ⟨?_, ?_, ?_, ?_, ?_, ?_, ?_, ?_⟩ <;> intro x e <;> cases e <;> decide

/-- R58, R195: the edit mask and the fields of that pending part in the reply to Read Zone; R29 with log 36: a
cursor whose next word is 65536. -/
theorem test_reply_bytes :
    (zoneBytes (.live part40 (some { PendingFields.empty with left := some 513, row := some 7 }))).drop 38 =
      [0x21, 0x00, 0x01, 0x02, 0x07, 0x00] ∧
    (tileBytes { awake with store := { awake.store with cursor := some ⟨0, 65536⟩ } } 0
      { width := 16, height := 1, base := 65535, references := 0 }).drop 10 = [1, 1, 0, 0, 0] := by
  decide +kernel

/-- FaultRequestsTaken: kinds 10, 11, 254 and all. -/
theorem witness_FaultRequestsTaken_kinds :
    takesRequests awake ∧ (255 : Byte).toNat = 255 ∧ (10 : Byte).toNat = (10 : Fin 11).val ∧
    (11 ≤ (11 : Byte).toNat ∧ (11 : Byte).toNat ≠ 255) ∧
    (11 ≤ (254 : Byte).toNat ∧ (254 : Byte).toNat ≠ 255) := by decide +kernel

/-- FaultRequestsTaken: twenty flags of 1, and a last flag of 2. -/
theorem witness_FaultRequestsTaken_flags :
    takesRequests awake ∧
    (∀ i : Fin 20, (Vector.replicate 20 (1 : Byte))[i].toNat ≤ 1) ∧
    ∃ i : Fin 20, 1 < ((Vector.replicate 20 (1 : Byte)).set 19 2)[i].toNat :=
  ⟨by decide +kernel, by decide +kernel, 19, by decide +kernel⟩

/-- HaltInputTaken: a released line and an asserted one. -/
theorem witness_HaltInputTaken :
    awake.inReset = false ∧ awake.faults.haltAsserted = false ∧
    (run1 .haltAssertion awake).inReset = false ∧
    (run1 .haltAssertion awake).faults.haltAsserted = true := by decide +kernel

/-- OccurrencesRecorded: a kind that occurs once and one that does not, stopping in KNITTING and not. -/
theorem witness_OccurrencesRecorded :
    let reports := [Report.plain .underrun 0]
    (reports.filter (fun r => decide (r.kind = .underrun))).length = 1 ∧
    (reports.filter (fun r => decide (r.kind = .parity))).length = 0 ∧
    causesAbort (knittingAt 50 .opened) .underrun ∧
    ¬ causesAbort (noStops (knittingAt 50 .opened)) .underrun ∧
    (recordedIn awake .underrun (contextOf awake (Report.plain .underrun 0))).faults.records[
      FaultKind.underrun.number].isSome = true := by
  unfold causesAbort; decide +kernel

/-! ### Witnesses: the run state -/

/-- RunRequestsTaken: SETUP, READY and HELD, with the halt line asserted and with a stopped record. -/
theorem witness_RunRequestsTaken :
    (∀ (i : Fin 11) (r : FaultRecord),
      (inState awake .held none).faults.records[i] = some r → r.stopped = false) ∧
    takesRequests (inState awake .held none) ∧ awake.engine.runState = .setup ∧
    awake.faults.haltAsserted = false ∧
    (inState awake .ready none).engine.runState = .ready ∧
    (inState awake .held none).engine.runState = .held ∧
    (run1 .haltAssertion (inState awake .ready none)).faults.haltAsserted = true ∧
    ((run1 .haltAssertion (inState awake .ready none)).faults.records[FaultKind.haltInput.number]).map
      (·.stopped) = some true := by
  refine ⟨fun i r e => ?_, by decide +kernel⟩
  simp [inState, awake, State.reset, FaultBlock.reset] at e

/-- AbortCourseTaken: a course with no pin down, one with the pin of system 0 holding, the partner absent, and
one whose partner rests one needle away. -/
theorem witness_AbortCourseTaken :
    let s := pinIs (knittingAt 50 .fed) (.holding 0 0 .right)
    (∀ (other : Fin 4) (c : Fin 16) (i : Nat) (d : Direction), other ≠ 0 →
      s.pins[other].state ≠ .holding c i d) ∧
    takesRequests s ∧ takesRequests awake ∧ awake.engine.runState.abortable = false ∧
    s.engine.runState.abortable = true ∧ s.pins[(0 : Fin 4)].state = .holding 0 0 .right ∧
    (restingAt s 1 51).carriers[partnerOf 0].state = .resting 51 ∧ (50 - 51 : Int).natAbs < 2 ∧
    s.geometry.clearance = 2 := by
  refine ⟨?_, by decide +kernel⟩
  intro other c i d ho
  have : (pinIs (knittingAt 50 .fed) (.holding 0 0 .right)).pins[other].state = .up := by
    revert ho; revert other; decide +kernel
  rw [this]
  exact nofun

/-- RunRequestsTaken: each run state of Drop Plans. -/
theorem witness_RunRequestsTaken_dropPlans :
    takesRequests (inState awake .held none) ∧ takesRequests (inState awake .ready none) ∧
    takesRequests (inState setUp .prepared (some (course0 none))) ∧
    takesRequests (knittingAt 50 .opened) := by decide +kernel

/-! ### Witnesses: plans -/

/-- A plan for the course of the small states. -/
def payload0 : PlanPayload :=
  { planTag := 9, direction := 0, racking := 0, endPosition := h 170, entries := [⟨0, 0, 0x80⟩] }

/-- What it carries. -/
def plan0 : Plan :=
  { tag := 9, direction := .right, racking := 0, endPosition := 170, entries := [entry0] }

/-- The part set up for a course, in READY. -/
def readyPart : State := inState setUp .ready none

/-- The payload carries the plan. -/
theorem payload0_matches : planMatches payload0 plan0 := by
  refine ⟨rfl, rfl, rfl, by decide, rfl, fun i e f he hf => ?_⟩
  match i with
  | 0 => cases he; cases hf; decide
  | n + 1 => simp [payload0] at he

/-- The payload is in range. -/
theorem payload0_inRange : planInRange readyPart.geometry payload0 := by
  unfold planInRange; decide +kernel

/-- The plan names records that stand. -/
theorem plan0_recordsFit : recordsFit readyPart plan0 := by
  intro e he
  simp only [plan0, List.mem_singleton] at he
  subst he
  exact ⟨⟨.live part40 none, by decide +kernel, rfl⟩, by decide +kernel⟩

/-- Its only entry conflicts with none. -/
theorem plan0_ordersFit : ordersFit plan0 := by
  refine ⟨fun i j e f hij he hf => ?_, by decide +kernel⟩
  match i, j with
  | _, 0 => omega
  | _, n + 1 => simp [plan0] at hf

/-- Either direction fits where none is expected. -/
theorem plan0_directionFits : directionFits readyPart.engine plan0.direction :=
  ⟨nofun, fun _ => nofun, fun _ _ => nofun⟩

/-- Four plans queued behind a prepared one. -/
def queueFull : State :=
  let s := inState setUp .prepared (some (course0 none))
  { s with engine := { s.engine with queue := List.replicate 4 plan0 } }

/-- QueueCourseChecks: a plan that passes every check in READY and, LEFT behind a RIGHT one, in PREPARED; and
one that each check refuses. -/
theorem witness_QueueCourseChecks :
    takesRequests readyPart ∧ readyPart.geometry.systems ≤ 4 ∧ readyPart.engine.queue.length < 4 ∧
    planInRange readyPart.geometry payload0 ∧ planMatches payload0 plan0 ∧
    directionFits readyPart.engine plan0.direction ∧ recordsFit readyPart plan0 ∧ ordersFit plan0 ∧
    (takesRequests queueFull ∧ 4 ≤ queueFull.engine.queue.length) ∧
    ¬ planInRange readyPart.geometry { payload0 with direction := 2 } ∧
    ¬ directionFits (inState setUp .prepared (some (course0 none))).engine .right ∧
    directionFits (inState setUp .prepared (some (course0 none))).engine .left ∧
    ¬ recordsFit (inState awake .ready none) plan0 ∧
    ¬ ordersFit { plan0 with entries := [entry0, entry0] } := by
  refine ⟨by decide +kernel, by decide +kernel, by decide +kernel, payload0_inRange,
    payload0_matches, plan0_directionFits, plan0_recordsFit, plan0_ordersFit, by decide +kernel,
    ?_, ?_, ?_, ?_, ?_⟩
  · unfold planInRange; decide +kernel
  · exact fun c => absurd (c.2.1 rfl (course0 none) rfl) (by decide)
  · exact ⟨nofun, fun _ k e => by cases e; rfl, fun _ => nofun⟩
  · intro c
    obtain ⟨⟨z, hz, -⟩, -⟩ := c entry0 (by simp [plan0])
    have e : (inState awake .ready none).zones.places[entry0.zone] = none := by decide +kernel
    rw [e] at hz
    cases hz
  · exact fun c => (c.1 0 1 entry0 entry0 (by decide) rfl rfl).1 rfl

/-- QueueCoursePrepares: the plan passes preparation, and fails it with the end position one needle short. -/
theorem witness_QueueCoursePrepares :
    readyPart.engine.runState = .ready ∧ preparationCheck readyPart plan0 = none ∧
    preparationCheck readyPart { plan0 with endPosition := 163 } = some ⟨.endShort, none⟩ ∧
    readyPart.front[(0 : Fin 4)].span = none ∧ readyPart.front[(0 : Fin 4)].preparer = .idle ∧
    readyPart.front[(0 : Fin 4)].pendingRead = none ∧ readyPart.front[(0 : Fin 4)].fetch = none ∧
    readyPart.front[(0 : Fin 4)].queue = [] ∧ readyPart.back[(0 : Fin 4)].span = none ∧
    readyPart.back[(0 : Fin 4)].preparer = .idle ∧ readyPart.back[(0 : Fin 4)].queue = [] ∧
    plan0.entries.filter (fun e => decide (e.system = 1)) = [] ∧
    (plan0.entries.filter (fun e => decide (e.system = 0))).head? = some entry0 ∧
    readyPart.part? entry0.zone = some part40 ∧
    readyPart.store.tiles[part40.given.tile] = some tile24 := by decide +kernel

/-- QueueCoursePrepares: the zones of that part meet the law that the clause on the channels asks for. -/
theorem readyPart_partLaw : partLaw readyPart := by
  have places : ∀ i : Fin 32, readyPart.zones.places[i] = none ∨
      readyPart.zones.places[i] = some (.live part40 none) := by decide +kernel
  intro i z hz
  rcases places i with e | e <;> rw [e] at hz <;> cases hz
  have tile : readyPart.store.tiles[part40.given.tile] = some tile24 := by decide +kernel
  refine ⟨⟨by decide, by decide +kernel, by decide, by decide, by decide, by decide, by decide, by decide,
    by decide, by decide, by decide, by decide +kernel, tile24, tile, by decide⟩,
    ⟨fun t ht => ?_, by decide, by decide +kernel, 0, by decide, by decide⟩, fun q hq => by cases hq⟩
  rw [tile] at ht
  cases ht
  decide

/-- QueueCoursePrepares: the channels of system 0 after it: F0 fetches the word of needle 40, and B0 is FULL with
the needles 40 to 87. -/
theorem test_prepared_channels :
    let t := run1 (.queueCourse 0 payload0) readyPart
    t.engine.runState = .prepared ∧ t.front[(0 : Fin 4)].fetch = some ⟨0, 40⟩ ∧
    t.back[(0 : Fin 4)].preparer = .full ∧ t.back[(0 : Fin 4)].queue.length = 48 ∧
    t.back[(0 : Fin 4)].next = .at 88 := by decide +kernel

/-- PreparationPasses: a plan that a check on an entry refuses. -/
theorem witness_PreparationPasses :
    preparationCheck (inState awake .ready none) plan0 = some ⟨.zoneState, some 0⟩ ∧
    preparationCheck readyPart { plan0 with entries := [{ entry0 with slot := 3 }] } =
      some ⟨.slotRange, some 0⟩ := by decide +kernel

/-! ### Witnesses: the carriage -/

/-- CountWithinPitch: a count at phase 0 of 4, and a clear time that can expire and one that cannot. -/
theorem witness_CountWithinPitch :
    awake.inReset = false ∧ ¬ completesPitch awake.geometry (countAt awake .encA) awake.tracker.phase ∧
    (let s := inState { awake with tracker := { awake.tracker with slow := true } } .ready none
     s.engine.runState ≠ .setup ∧ s.tracker.slow = true) ∧
    awake.engine.runState = .setup :=
  ⟨rfl, by show ¬ ((0 : Nat) + 1 = 4); decide, ⟨nofun, rfl⟩, rfl⟩

/-- A part with its carriage one count short of a step to the right. -/
theorem carriage_steps (c : Int) (hc : c ≠ 1535) (s : State) (ha : s.tracker.encA = false)
    (hb : s.tracker.encB = false) (hp : s.geometry.pulses = 4) (hn : s.geometry.bedWidth = 512) :
    makesStepNow (carriageAt s c) .encA := by
  have e : countAt (carriageAt s c) .encA = .right := by
    unfold countAt carriageAt; dsimp only; rw [ha, hb]; rfl
  unfold makesStepNow
  rw [e]
  refine ⟨?_, ?_⟩
  · simp [completesPitch, carriageAt, hp]
  · simp [limitOf, carriageAt, hn]; omega

/-- StepOutsideACourse: a step in each run state, in READY both ways, and in PREPARED against the plan. -/
theorem witness_StepOutsideACourse :
    let ready := carriageAt (inState awake .ready none) 5
    let expecting := { ready with engine := { ready.engine with expected := some .right } }
    let prepared := carriageAt (inState setUp .prepared
      (some { course0 none with direction := .left })) 5
    makesStepNow (carriageAt awake 1534) .encA ∧ (carriageAt awake 1534).engine.runState = .setup ∧
    makesStepNow ready .encA ∧ ready.engine.expected ≠ some (countAt ready .encA) ∧
    makesStepNow expecting .encA ∧ expecting.engine.expected = some (countAt expecting .encA) ∧
    makesStepNow prepared .encA ∧
    ∀ k, prepared.engine.course = some k → k.direction ≠ countAt prepared .encA :=
  ⟨carriage_steps 1534 (by decide) awake rfl rfl rfl rfl, rfl,
    carriage_steps 5 (by decide) (inState awake .ready none) rfl rfl rfl rfl, nofun,
    carriage_steps 5 (by decide) (inState awake .ready none) rfl rfl rfl rfl, rfl,
    carriage_steps 5 (by decide) (inState setUp .prepared
      (some { course0 none with direction := .left })) rfl rfl rfl rfl,
    fun k e => by cases e; decide +kernel⟩

/-- EncoderFaults: the carriage at the right limit of its range, one count short of a step. -/
theorem witness_EncoderFaults :
    let s := carriageAt awake 1535
    completesPitch s.geometry (countAt s .encA) s.tracker.phase ∧
    s.tracker.position = limitOf s.geometry (countAt s .encA) := ⟨rfl, rfl⟩

/-- A prepared part with the carriage at a position. -/
def preparedAt (c : Int) : State := carriageAt (inState setUp .prepared (some (course0 none))) c

/-- The zones of the prepared course have current parts. -/
theorem prepared_parts (c : Int) :
    ∀ r ∈ (course0 none).runs, ((preparedAt c).part? r.entry.zone).isSome = true := by
  intro r hr
  simp only [course0, List.mem_singleton] at hr
  subst hr
  rfl

/-- ActivatingStep: the last position from which the plan starts in time (the pin of system 0 then stands at
27, before the engage point 28), the first from which it starts late, and a carriage without reference. -/
theorem witness_ActivatingStep :
    makesStepNow (preparedAt 26) .encA ∧ (preparedAt 26).engine.course = some (course0 none) ∧
    (course0 none).direction = countAt (preparedAt 26) .encA ∧
    (preparedAt 26).tracker.referenced = true ∧
    (run1 countRight (preparedAt 26)).engine.runState = .knitting ∧
    (run1 countRight (preparedAt 27)).engine.runState = .held ∧
    (∀ j : Fin 4, ¬ j < 0) ∧
    ({ (preparedAt 26).tracker with referenced := false }).referenced = false :=
  ⟨carriage_steps 26 (by decide) _ rfl rfl rfl rfl, rfl, rfl, rfl, by decide +kernel,
    by decide +kernel, by decide, rfl⟩

/-- ReversalStep: a step to the left in a RIGHT course. -/
theorem witness_ReversalStep :
    let s := { knittingAt 50 .opened with
      tracker := { (knittingAt 50 .opened).tracker with phase := 0 } }
    makesStepNow s .encB ∧ s.engine.runState = .knitting ∧
    s.engine.course = some (course0 (some .opened)) ∧
    (course0 (some .opened)).direction ≠ countAt s .encB := by
  refine ⟨⟨rfl, by decide +kernel⟩, rfl, rfl, by decide +kernel⟩

/-- A front queue whose head is for a needle. -/
def queued (s : State) (n : Nat) (d : Decision) : State :=
  { s with front := s.front.set 0 { s.front[0] with
      span := some ⟨40, 159⟩, preparer := .finished, next := .past
      queue := [⟨n, d, .pattern, some 0⟩] } }

/-- The state with a step to the right taken after some microseconds. -/
def stepTo (s : State) (micros : Nat) : State :=
  { s with tracker := trackerAtStep s .encA false micros }

/-- A step with no report of a pass too fast, no channel without a span and a queue, and no pin event is quiet. -/
theorem stepQuiet_of (s : State) (k : Course) (fast : s.tracker.slow = false)
    (queues : ∀ (bed : Bed) (sys : Fin 4), (s.channel bed sys).span = none ∨ (s.channel bed sys).queue ≠ [])
    (pins : ∀ sys, pinEvent s k sys = .none) : stepQuiet s k := by
  refine ⟨fun _ c => ?_, fun _ bed sys sp h _ => ?_, fun _ sys c i => by rw [pins]; exact nofun⟩
  · rw [fast] at c
    exact nomatch c.1
  · rcases queues bed sys with e | e
    · rw [e] at h
      cases h
    · exact e

/-- KnittingStepSelects: under the power-on policy, the step to the first needle of the span with its decision
queued, with nothing that stops; and the same step taken too fast, which stops. -/
theorem witness_KnittingStepSelects :
    let s := queued (knittingAt 39 .opened) 40 .knit
    let k := course0 (some .opened)
    makesStepNow s .encA ∧ s.engine.runState = .knitting ∧ s.engine.course = some k ∧
    k.direction = countAt s .encA ∧ (stepTo s 700).tracker.position = 40 ∧ 40 ≠ k.endPosition ∧
    s.faults.policy = Policy.reset ∧ stepQuiet (stepTo s 700) k ∧ ¬ stepQuiet (stepTo s 250) k ∧
    pointNeedle (stepTo s 700) k .front 0 = 40 ∧ ∀ c, pinEvent (stepTo s 700) k 0 ≠ .miss c 0 := by
  have pins : ∀ sys, pinEvent (stepTo (queued (knittingAt 39 .opened) 40 .knit) 700)
      (course0 (some .opened)) sys = .none := by decide +kernel
  refine ⟨carriage_steps 39 (by decide) _ rfl rfl rfl rfl, rfl, rfl, rfl, rfl, by decide, rfl,
    stepQuiet_of _ _ rfl ?_ pins, fun c => c.1 rfl ⟨rfl, rfl⟩, rfl, fun c => ?_⟩
  · intro bed
    cases bed <;> decide +kernel
  · rw [pins]
    exact nofun

/-- KnittingStepSelects: the ends of a span, an UP pin one step before its engage point, and a HOLDING pin one
step before its release point. -/
theorem witness_KnittingStepSelects_places :
    let k := course0 (some .opened)
    insideSpan .right ⟨40, 159⟩ 40 = true ∧ insideSpan .right ⟨40, 159⟩ 39 = false ∧
    insideSpan .right ⟨40, 159⟩ 159 = true ∧ insideSpan .right ⟨40, 159⟩ 160 = false ∧
    nextOpen k 0 0 (run0 (some .opened)) ∧ pinAt (stepTo (knittingAt 27 .opened) 700) k 0 28 ∧
    pinAt (stepTo (knittingAt 162 .fed) 700) k 0 163 :=
  ⟨rfl, rfl, rfl, rfl, ⟨rfl, rfl, rfl, fun j q hj => by omega⟩, rfl, rfl⟩

/-- With a pending correction. -/
def correcting (s : State) (delta : Int) : State :=
  { s with tracker := { s.tracker with correction := some delta } }

/-- CompletingStep: the step to the end position with every pin up and the entry done, quiet and too fast, no
correction, one that keeps the position in range and one that leaves it, and a queued plan. -/
theorem witness_CompletingStep :
    let s := knittingAt 169 .done
    let k := course0 (some .done)
    let q := { s with engine := { s.engine with queue := [{ plan0 with direction := .left }] } }
    makesStepNow s .encA ∧ s.engine.course = some k ∧ k.direction = countAt s .encA ∧
    stepQuiet (stepTo s 700) k ∧ ¬ stepQuiet (stepTo s 250) k ∧
    (stepTo s 700).tracker.position = k.endPosition ∧ s.tracker.correction = none ∧
    (correcting s 3).tracker.correction.getD 0 = 3 ∧ (correcting s 2000).tracker.correction ≠ none ∧
    (-1024 ≤ 170 + (3 : Int) ∧ 170 + (3 : Int) ≤ 512 + 1023 ∧ ¬ 170 + (2000 : Int) ≤ 512 + 1023) ∧
    s.engine.queue = [] ∧ q.engine.queue = { plan0 with direction := .left } :: [] ∧
    (∀ sys : Fin 4, s.pins[sys].state = .up) ∧ (∀ r ∈ k.runs, r.status ≠ some .opened) := by
  refine ⟨carriage_steps 169 (by decide) _ rfl rfl rfl rfl, rfl, rfl,
    stepQuiet_of _ _ rfl ?_ (by decide +kernel), fun c => c.1 rfl ⟨rfl, rfl⟩, rfl, rfl, rfl, nofun,
    by decide, rfl, rfl, by decide +kernel, by decide +kernel⟩
  intro bed
  cases bed <;> decide +kernel

/-- RowAdvance: a zone with one slot owed of three, and a zone of one colour on its last row. -/
theorem witness_RowAdvance :
    let one : ZonePart := { part40 with given := { fields40 with colours := 1, row := 19 } }
    let s := zoneAt setUp 1 (.live one none)
    s.zones.places[(0 : Fin 32)] = some (.live part40 none) ∧
    (Zone.live part40 none).current? = some part40 ∧
    s.store.tiles[part40.given.tile] = some tile24 ∧ 0 < tile24.width ∧
    (∃ r ∈ (course0 (some .done)).runs, r.entry.zone = 0) ∧
    (∀ r ∈ (course0 (some .done)).runs, r.entry.zone ≠ 1) ∧
    ¬ (∀ j : Fin 8, j.val < part40.given.colours →
      part40.served.getLsbD j.val = true ∨ j ∈ [(0 : Fin 8)]) ∧
    (∀ j : Fin 8, j.val < one.given.colours →
      one.served.getLsbD j.val = true ∨ j ∈ [(0 : Fin 8)]) ∧
    one.repeatIndex + 1 = one.given.repeats ∧ one.given.row + 1 = tile24.height := by decide +kernel

/-- PinAtStep: a pin UP at its engage point; one whose engage point is its release point; a CATCHING pin with
one step left; a HOLDING pin at its release point. -/
theorem witness_PinAtStep :
    let k := course0 (some .opened)
    let short : Course := { k with runs := [{ run0 (some .opened) with release := 28 }] }
    (knittingAt 28 .opened).engine.course = some k ∧
    (knittingAt 28 .opened).pins[(0 : Fin 4)].state = .up ∧
    nextOpen k 0 0 (run0 (some .opened)) ∧ pinAt (knittingAt 28 .opened) k 0 28 ∧
    ¬ pinAt (knittingAt 27 .opened) k 0 28 ∧
    nextOpen short 0 0 { run0 (some .opened) with release := 28 } ∧
    (pinIs (knittingAt 30 .opened) (.catching 0 1 0 .right)).pins[(0 : Fin 4)].state =
      .catching 0 1 0 .right ∧
    (pinIs (knittingAt 163 .fed) (.holding 0 0 .right)).pins[(0 : Fin 4)].state =
      .holding 0 0 .right ∧ pinAt (knittingAt 163 .fed) k 0 163 := by
  refine ⟨rfl, rfl, ⟨rfl, rfl, rfl, fun j q hj => by omega⟩, rfl, ?_,
    ⟨rfl, rfl, rfl, fun j q hj => by omega⟩, rfl, rfl, rfl⟩
  unfold pinAt; decide +kernel

/-- A carriage that counts to the right, at a position, with a home needle of 100. -/
def atHome (c : Int) (referenced : Bool) : State :=
  { awake with
    geometry := { awake.geometry with homeNeedle := 100 }
    tracker := { awake.tracker with
      countDirection := some .right, position := c, referenced := referenced } }

/-- HomeEdgeTaken: no count direction, no reference, a deviation of the tolerance and of one more, in and out
of KNITTING. -/
theorem witness_HomeEdgeTaken :
    awake.tracker.countDirection = none ∧ (atHome 99 false).tracker.referenced = false ∧
    (atHome 99 true).tracker.referenced = true ∧
    ((100 : Int) - (atHome 99 true).tracker.position).natAbs ≤ (atHome 99 true).geometry.homeTolerance ∧
    (atHome 98 true).geometry.homeTolerance < ((100 : Int) - (atHome 98 true).tracker.position).natAbs ∧
    (atHome 98 true).engine.runState ≠ .knitting ∧
    (inState (atHome 98 true) .knitting none).engine.runState = .knitting := by decide +kernel

/-! ### Witnesses: the Tile Store -/

/-- AccessMemory: a write of the last word, and a read. -/
theorem witness_AccessMemory :
    awake.inReset = false ∧ memoryLaw awake ∧
    (flying awake (.loadWrite 65535 5)).store.inFlight = some (.loadWrite 65535 5) ∧
    (Access.loadWrite 65535 5).word < memorySize ∧
    (flying awake (.readBack 0)).store.inFlight = some (.readBack 0) :=
  ⟨rfl, rfl, rfl, by decide, rfl⟩

/-- A tile being loaded, with words in the buffer. -/
def loading (words : List (Nat × BitVec 64)) (next : Nat) : State :=
  let s := tileAt awake 0 { tile24 with references := 0 }
  { s with store := { s.store with buffer := words, cursor := some ⟨0, next⟩ } }

/-- LoadWriteCompletes: the write that empties the buffer at the end of the extent and before it, and one with a
word to follow. -/
theorem witness_LoadWriteCompletes :
    memoryLaw (flying (loading [(39, 5)] 40) (.loadWrite 39 5)) ∧ 39 < memorySize ∧
    (loading [(39, 5)] 40).store.buffer.tail = [] ∧
    (loading [(39, 5)] 40).store.cursor = some ⟨0, 40⟩ ∧
    40 = tile24.base + tile24.height * pitchOf tile24.width ∧
    (loading [(38, 5)] 39).store.cursor = some ⟨0, 39⟩ ∧
    (loading [(38, 5), (39, 6)] 40).store.buffer.tail = (39, 6) :: [] ∧
    (loading [(38, 5), (39, 6)] 40).engine.course = none ∧
    ∀ i, ¬ asksForWord (loading [(38, 5), (39, 6)] 40) i := by
  refine ⟨rfl, by decide, rfl, rfl, by decide, rfl, rfl, rfl, ?_⟩
  unfold asksForWord; decide +kernel

/-- A front channel of a course whose fetch is in flight. -/
def fetching (stale : Bool) : State :=
  let s := inState setUp .prepared (some (course0 none))
  flying { s with front := s.front.set 0 { s.front[0] with
    span := some ⟨40, 159⟩, preparer := .fetching, next := .at 40, fetch := some ⟨0, 40⟩
    stale := stale } } (.fetch 0 0)

/-- With a channel that goes on from a needle. -/
def goingOn (bed : Bed) (state : PreparerState) (next : NextNeedle) : State :=
  let s := inState setUp .prepared (some (course0 none))
  setChannel s bed 0 { s.channel bed 0 with span := some ⟨38, 159⟩, preparer := state, next := next }

/-- PreparersRun: preparers of both beds that are FILLING, at a gap needle, at a zone needle and past the end, one
that is FULL, and one in another state. -/
theorem witness_PreparersRun :
    let s := goingOn .front .filling (.at 38)
    s.engine.course = some (course0 none) ∧ (s.channel .front 0).preparer = .filling ∧
    (s.channel .front 0).span = some ⟨38, 159⟩ ∧ (s.channel .front 0).queue.length ≤ 48 ∧
    (s.channel .front 0).next = .at 38 ∧ insideSpan .right ⟨38, 159⟩ 38 = true ∧
    entryAt s (course0 none) .front 0 39 = none ∧
    entryAt s (course0 none) .front 0 40 = some (0, run0 none) ∧
    ((goingOn .back .full (.at 159)).channel .back 0).preparer = .full ∧
    ((goingOn .back .filling .past).channel .back 0).next = .past ∧
    ((goingOn .back .finished .past).channel .back 0).preparer = .finished := by decide +kernel

/-- R118, R119: from needle 38 a front preparer queues the gap needles 38 and 39 and asks for the word of needle
40; a back one decides on to the 48th needle; and one past the end of its span is FINISHED. -/
theorem test_preparers :
    let f := (refill (goingOn .front .filling (.at 38)) .front 0).channel .front 0
    let b := (refill (goingOn .back .filling (.at 38)) .back 0).channel .back 0
    (f.queue.map (·.needle) = [38, 39] ∧ f.next = .at 40 ∧ f.pendingRead = some 0) ∧
    (b.queue.length = 48 ∧ b.preparer = .full ∧ b.next = .at 86) ∧
    ((refill (goingOn .back .full (.at 159)) .back 0).channel .back 0).preparer = .finished := by
  decide +kernel

/-- FetchCompletes: a fetch of the first needle of the zone, passing its check and failing it, and a stale one.
The segment is the needles of word 0. -/
theorem witness_FetchCompletes :
    (fetching false).engine.course = some (course0 none) ∧
    (fetching false).front[(0 : Fin 4)].fetch = some ⟨0, 40⟩ ∧
    (fetching false).front[(0 : Fin 4)].span = some ⟨40, 159⟩ ∧
    entryAt (fetching false) (course0 none) .front 0 40 = some (0, run0 none) ∧
    (fetching false).part? 0 = some part40 ∧ (fetching false).store.tiles[(0 : Fin 64)] = some tile24 ∧
    (fetching false).store.inFlight = some (.fetch 0 0) ∧
    (fetching false).front[(0 : Fin 4)].stale = false ∧
    (fetching true).front[(0 : Fin 4)].stale = true ∧
    (segment part40 tile24 .right ⟨0, 40⟩ = List.range' 40 16 ∧
      entryAt (fetching false) (course0 none) .front 0 55 = some (0, run0 none)) ∧
    parityPasses { data := 0, parity := false } = true ∧
    parityPasses { data := 1, parity := false } = false := by decide +kernel

/-- A front channel that asks for a word or not, with decisions in its queue or none. -/
def channelAsking (ch : Channel) (asks urgent : Bool) : Channel :=
  { ch with
    pendingRead := if asks then some 3 else none
    queue := if urgent then [] else List.replicate 8 ⟨0, .miss, .gap, none⟩ }

/-- A part in which front preparers ask for words, the loader too. -/
def asking (sys : List (Fin 4)) (urgent : Bool) (mode : ArbiterMode) (last : Requester) : State :=
  let s := loading [(39, 5)] 40
  let front := Vector.ofFn (fun i : Fin 4 => channelAsking s.front[i] (decide (i ∈ sys)) urgent)
  { s with
    front := front
    geometry := { s.geometry with arbiterMode := mode }
    store := { s.store with lastGranted := last, lastPreparer := 1 } }

/-- ArbiterChooses: two urgent preparers (R37: with last F1, F0 comes before F1), none urgent with the loader
granted last and not, in both modes, and nobody pending. -/
theorem witness_ArbiterChooses :
    (∀ r, ¬ asksForPort awake r) ∧ loaderAsks (asking [0, 1] false .alternating .loader) ∧
    (isUrgent (asking [0, 1] true .alternating .loader) 0 ∧
      arbiterChoice (asking [0, 1] true .alternating .loader) = some (.front 0)) ∧
    (∀ i, ¬ isUrgent (asking [0, 1] false .alternating .loader) i) ∧
    arbiterChoice (asking [0, 1] false .alternating .loader) = some (.front 0) ∧
    arbiterChoice (asking [0, 1] false .alternating (.front 1)) = some .loader ∧
    arbiterChoice (asking [] false .alternating .loader) = some .loader ∧
    arbiterChoice (asking [0, 1] false .rotating (.front 1)) = some .loader ∧
    arbiterChoice (asking [0, 1] false .rotating .loader) = some (.front 0) := by
  unfold isUrgent asksForWord
  refine ⟨?_, .inl (by decide +kernel), by decide +kernel⟩
  intro r
  match r with
  | .front i => revert i; unfold asksForPort asksForWord; decide +kernel
  | .loader => rintro (c | ⟨r, c, -⟩)
               · exact c rfl
               · cases c

/-- DefineTileTaken: the last id and the one beyond, a place taken, the largest tile, and the example of R26: the
extent 512 to 571 meets one from 570 and not one from 572. -/
theorem witness_DefineTileTaken :
    let s := tileAt awake 1 { width := 24, height := 30, base := 512, references := 0 }
    takesRequests s ∧ 64 ≤ (64 : Byte).toNat ∧ (63 : Byte).toNat = (63 : Fin 64).val ∧
    s.store.tiles[(1 : Fin 64)].isSome = true ∧ s.store.tiles[(2 : Fin 64)] = none ∧
    codeOf (.defineTile 0 1 16 4 0) s = some .inUse ∧
    codeOf (.defineTile 0 2 16 4 570) s = some .overlap ∧
    codeOf (.defineTile 0 2 16 4 572) s = some .ok ∧
    codeOf (.defineTile 0 2 1024 1024 0) awake = some .ok ∧
    codeOf (.defineTile 0 2 1024 1024 1) awake = some .range ∧
    codeOf (.defineTile 0 2 1025 4 0) awake = some .range ∧
    codeOf (.defineTile 0 2 16 0 0) awake = some .range := by decide +kernel

/-- DefineTileTaken: the tiles of a directory with one tile have a pixel at least. -/
theorem witness_DefineTileTaken_pixels :
    ∀ (j : Fin 64) (v : Tile), (tileAt awake 0 tile24).store.tiles[j] = some v →
      1 ≤ v.width ∧ 1 ≤ v.height := by
  intro j v hv
  have key : ∀ j : Fin 64, (tileAt awake 0 tile24).store.tiles[j] = none ∨
      (tileAt awake 0 tile24).store.tiles[j] = some tile24 := by decide +kernel
  rcases key j with e | e <;> rw [e] at hv <;> cases hv
  decide

/-- RetireAndLoadTile: a referenced tile, a free one, one with the cursor, a filled buffer, and the rows 19 and
20 of 20. -/
theorem witness_RetireAndLoadTile :
    takesRequests (tileAt awake 0 tile24) ∧ (tileAt awake 0 tile24).store.tiles[(0 : Fin 64)] = some tile24 ∧
    0 < tile24.references ∧ ({ tile24 with references := 0 } : Tile).references = 0 ∧
    (∃ c, (loading [] 39).store.cursor = some c ∧ c.tile = 0) ∧
    (∀ c, (tileAt awake 0 tile24).store.cursor = some c → c.tile ≠ 0) ∧
    (loading [(38, 5)] 39).store.buffer ≠ [] ∧ (loading [] 39).store.buffer = [] ∧
    (19 : Half).toNat < tile24.height ∧ tile24.height ≤ (20 : Half).toNat ∧
    awake.store.tiles[(0 : Fin 64)] = none :=
  ⟨by decide +kernel, by decide +kernel, by decide, rfl, ⟨_, rfl, rfl⟩, fun _ => nofun,
    by decide +kernel, rfl, by decide, by decide, by decide +kernel⟩

/-- TileDataTaken: payloads of 0, 9, 72, 8 and 64 bytes, no cursor, a filled buffer, one word left and
none. -/
theorem witness_TileDataTaken :
    takesRequests (loading [] 39) ∧ codeOf (.tileData 0 []) (loading [] 39) = some .badLength ∧
    codeOf (.tileData 0 (List.replicate 8 0)) awake = some .noRecord ∧
    codeOf (.tileData 0 (List.replicate 9 0)) (loading [(38, 5)] 39) = some .busy ∧
    codeOf (.tileData 0 (List.replicate 9 0)) (loading [] 39) = some .badLength ∧
    codeOf (.tileData 0 (List.replicate 72 0)) (loading [] 31) = some .badLength ∧
    codeOf (.tileData 0 (List.replicate 64 0)) (loading [] 32) = some .ok ∧
    codeOf (.tileData 0 (List.replicate 8 0)) (loading [] 39) = some .ok ∧
    codeOf (.tileData 0 (List.replicate 16 0)) (loading [] 39) = some .range := by decide +kernel

/-- ReadTileWordsTaken: eight words to the end of the extent and one past it, and the last read of a request and
one before it. -/
theorem witness_ReadTileWordsTaken :
    codeOf (.readTileWords 0 0 16 1 8) (tileAt awake 0 tile24) = some .range ∧
    (run1 (.readTileWords 0 0 16 0 8) (tileAt awake 0 tile24)).store.inFlight = some (.readBack 32) ∧
    ((run1 (.readTileWords 0 0 16 0 8) (tileAt awake 0 tile24)).link.request.map (·.waiting)) =
      some [33, 34, 35, 36, 37, 38, 39] ∧
    codeOf (.readTileWords 0 0 19 1 2) (tileAt awake 0 tile24) = some .range ∧
    codeOf (.readTileWords 0 64 0 0 1) (tileAt awake 0 tile24) = some .range ∧
    codeOf (.readTileWords 0 1 0 0 1) (tileAt awake 0 tile24) = some .noRecord ∧
    (flying readingBack (.readBack 2)).store.inFlight = some (.readBack 2) ∧
    (flying readingBack (.readBack 2)).link.request = some ⟨1, false, [3, 4], []⟩ ∧
    2 < memorySize := by decide +kernel

/-! ### Witnesses: the Zone Table -/

/-- A Define Zone payload for the zone of the small states. -/
def zonePayload : ZonePayload where
  left := 40
  right := 159
  tile := 0
  anchor := 40
  shift := 0
  row := 0
  repeats := 1
  colours := 3
  floatLimit := 6
  packed := 2
  map := Vector.replicate 16 0

/-- A payload that gives nothing. -/
def noEdit : EditPayload where
  left := none
  right := none
  tile := none
  anchor := none
  shift := none
  row := none
  repeats := none
  colours := none
  floatLimit := none
  backing := none
  mirror := none
  map := none
  reserved := 0

/-- The ranges of a part with one zone are in order. -/
theorem setUp_rangesOrdered : rangesOrdered setUp := by
  intro i z r hz hr
  have key : ∀ i : Fin 32, setUp.zones.places[i] = none ∨
      setUp.zones.places[i] = some (.live part40 none) := by decide +kernel
  rcases key i with e | e <;> rw [e] at hz <;> cases hz
  cases hr
  decide

/-- The tiles of that part have a column at least. -/
theorem setUp_columns : ∀ (j : Fin 64) (v : Tile), setUp.store.tiles[j] = some v → 1 ≤ v.width :=
  fun j v hv => (witness_DefineTileTaken_pixels j v hv).1

/-- DefineZoneTaken: ranges that touch and that meet, a map slot of k − 1 and of k, a row of H − 1 and of H, an
absent tile, a tile being loaded, and both kinds of run state. -/
theorem witness_DefineZoneTaken :
    rangesOrdered setUp ∧ (staging (inState setUp .knitting none) ∧ ¬ staging setUp) ∧
    takesRequests setUp ∧ codeOf (.defineZone 0 32 zonePayload) setUp = some .range ∧
    codeOf (.defineZone 0 0 zonePayload) setUp = some .inUse ∧
    codeOf (.defineZone 0 31 { zonePayload with left := 159, right := 300 }) setUp = some .overlap ∧
    payloadOf (.defineZone 0 31 { zonePayload with left := 160, right := 511, anchor := h (-20) }) setUp =
      some [0, 1, 4, 0] ∧
    codeOf (.defineZone 0 31 { zonePayload with left := 160, right := 512 }) setUp = some .range ∧
    codeOf (.defineZone 0 31 { zonePayload with map := Vector.replicate 16 2 }) setUp =
      some .overlap ∧
    codeOf (.defineZone 0 31 { zonePayload with map := Vector.replicate 16 3 }) setUp =
      some .range ∧
    codeOf (.defineZone 0 31 { zonePayload with row := 20 }) setUp = some .range ∧
    codeOf (.defineZone 0 31 { zonePayload with row := 19 }) setUp = some .overlap ∧
    codeOf (.defineZone 0 31 { zonePayload with tile := 1 }) setUp = some .noRecord ∧
    codeOf (.defineZone 0 31 zonePayload) (loading [] 39) = some .inUse ∧
    payloadOf (.defineZone 0 31 { zonePayload with left := 160, right := 200 })
      (inState setUp .knitting none) = some [1, 0, 0, 0] :=
  ⟨setUp_rangesOrdered, ⟨.inr rfl, by unfold staging; decide +kernel⟩, by decide +kernel⟩

/-- EditZoneTaken: an empty mask, a range, a tile, an agreement and an overlap that refuse, and an edit taken
between courses and one staged. -/
theorem witness_EditZoneTaken :
    rangesOrdered setUp ∧ takesRequests setUp ∧ (Zone.live part40 none).isRetiring = false ∧
    setUp.store.tiles[(Zone.live part40 none).baseFields.tile].isSome = true ∧
    (Zone.live part40 none).pendingPart.tile = none ∧
    payloadOf (.editZone 0 0 noEdit) setUp = some [2] ∧
    codeOf (.editZone 0 1 noEdit) setUp = some .noRecord ∧
    codeOf (.editZone 0 0 { noEdit with left := some 512 }) setUp = some .range ∧
    codeOf (.editZone 0 0 { noEdit with left := some 160 }) setUp = some .range ∧
    payloadOf (.editZone 0 0 { noEdit with left := some 159 }) setUp = some [0] ∧
    codeOf (.editZone 0 0 { noEdit with tile := some 1 }) setUp = some .noRecord ∧
    codeOf (.editZone 0 0 { noEdit with row := some 20 }) setUp = some .range ∧
    codeOf (.editZone 0 0 { noEdit with right := some 200 }) (zoneAt setUp 1 (.live part200 none)) =
      some .overlap ∧
    payloadOf (.editZone 0 0 { noEdit with right := some 199 }) (zoneAt setUp 1 (.live part200 none)) =
      some [0] ∧
    payloadOf (.editZone 0 0 { noEdit with row := some 19 }) (inState setUp .prepared none) =
      some [1] := ⟨setUp_rangesOrdered, by decide +kernel⟩

/-- RetireZoneAndMarkTaken: a zone that a plan names, a LIVE one between courses and in one, a PENDING one; a mark
that completes at once, one that waits, and one refused. -/
theorem witness_RetireZoneAndMarkTaken :
    planNames (knittingAt 50 .opened) 0 ∧ takesRequests setUp ∧
    codeOf (.retireZone 0 32) setUp = some .range ∧ codeOf (.retireZone 0 1) setUp = some .noRecord ∧
    codeOf (.retireZone 0 0) (knittingAt 50 .opened) = some .inUse ∧
    payloadOf (.retireZone 0 0) setUp = some [0] ∧
    payloadOf (.retireZone 0 1) (zoneAt (knittingAt 50 .opened) 1 (.live part200 none)) = some [1] ∧
    payloadOf (.retireZone 0 1) (zoneAt (knittingAt 50 .opened) 1 (.pending part200.given)) =
      some [0] ∧
    payloadOf (.mark 0 6) setUp = some [0] ∧
    payloadOf (.mark 0 6) (zoneAt (knittingAt 50 .opened) 1 (.pending part200.given)) = some [1] ∧
    codeOf (.mark 0 7) (run1 (.mark 0 6)
      (zoneAt (knittingAt 50 .opened) 1 (.pending part200.given))) = some .busy :=
  ⟨.inr ⟨_, rfl, run0 (some .opened), by simp [course0], rfl⟩, by decide +kernel⟩

/-! ### Witnesses: carriers, outputs and geometry -/

/-- CarrierRequestsTaken: positions at both ends of the rest range and beyond, one and two needles from the rail
partner, from its travel interval (30 to 163), a carrier in use and one that is not. -/
theorem witness_CarrierRequestsTaken :
    takesRequests setUp ∧ setUp.carriers[(1 : Fin 16)].state = .absent ∧
    setUp.carriers[(0 : Fin 16)].state ≠ .absent ∧
    codeOf (.installCarrier 0 16 0 0) setUp = some .range ∧
    codeOf (.installCarrier 0 0 0 0) setUp = some .inUse ∧
    codeOf (.installCarrier 0 2 (h (-256)) 0) setUp = some .ok ∧
    codeOf (.installCarrier 0 2 (h (-257)) 0) setUp = some .range ∧
    codeOf (.installCarrier 0 2 767 0) setUp = some .ok ∧
    codeOf (.installCarrier 0 2 768 0) setUp = some .range ∧
    codeOf (.installCarrier 0 1 31 0) setUp = some .overlap ∧
    codeOf (.installCarrier 0 1 32 0) setUp = some .ok ∧
    codeOf (.installCarrier 0 1 164 0) (knittingAt 50 .opened) = some .overlap ∧
    codeOf (.installCarrier 0 1 165 0) (knittingAt 50 .opened) = some .ok ∧
    codeOf (.placeCarrier 0 1 0) setUp = some .noRecord ∧
    codeOf (.placeCarrier 0 0 0) (knittingAt 50 .opened) = some .inUse ∧
    codeOf (.placeCarrier 0 0 0) setUp = some .ok ∧
    codeOf (.removeCarrier 0 0) (knittingAt 50 .opened) = some .inUse ∧
    codeOf (.removeCarrier 0 0) setUp = some .ok := by decide +kernel

/-- CatchSensesTaken: a rise under a CATCHING pin, a fall under a HOLDING pin with its stop enabled and not, edges
of other pins, and a window run out. -/
theorem witness_CatchSensesTaken :
    let catching := pinIs (knittingAt 30 .opened) (.catching 0 1 0 .right)
    let holding := run1 (.catchRise 0) (pinIs (knittingAt 30 .fed) (.holding 0 0 .right))
    (catching.engine.runState = .knitting ∧ catching.pins[(0 : Fin 4)].sense = false ∧
      catching.pins[(0 : Fin 4)].state = .catching 0 1 0 .right) ∧
    (holding.pins[(0 : Fin 4)].sense = true ∧ holding.pins[(0 : Fin 4)].state = .holding 0 0 .right ∧
      holding.faults.policy.stopEnable[3] = true ∧ holding.faults.records[(3 : Fin 11)] = none) ∧
    (noStops holding).faults.policy.stopEnable[3] = false ∧
    (pinIs (knittingAt 30 .opened) (.catching 0 0 0 .right)).pins[(0 : Fin 4)].state =
      .catching 0 0 0 .right ∧
    awake.engine.runState ≠ .knitting := by decide +kernel

/-- ForceOutputsTaken: the last system in use and the first beyond, each value and the first beyond, and a pin's
bed byte. -/
theorem witness_ForceOutputsTaken :
    takesRequests awake ∧ codeOf (.forceOutputs 0 0 1 1 2) awake = some .ok ∧
    codeOf (.forceOutputs 0 0 2 1 2) awake = some .range ∧
    codeOf (.forceOutputs 0 0 1 1 3) awake = some .range ∧
    codeOf (.forceOutputs 0 0 1 2 2) awake = some .range ∧
    codeOf (.forceOutputs 0 1 0 0 1) awake = some .ok ∧
    codeOf (.forceOutputs 0 1 0 0 2) awake = some .range ∧
    codeOf (.forceOutputs 0 1 0 1 1) awake = some .range ∧
    codeOf (.forceOutputs 0 2 0 0 0) awake = some .range ∧
    codeOf (.forceOutputs 0 0 0 0 0) (inState awake .ready none) = some .state := by decide +kernel

/-- A Configure that gives nothing. -/
def noChange : ConfigurePayload where
  bedWidth := none
  systems := none
  pulses := none
  homeNeedle := none
  homeTolerance := none
  pointOffsets := none
  pinOffsets := none
  engageLead := none
  catchWindow := none
  overshoot := none
  clearance := none
  fastLimit := none
  clearLimit := none
  arbiterMode := none
  urgency := none
  coilPolarities := none
  pinPolarities := none
  reserved := 0

/-- The geometry with its home needle at 100, as in the examples of R176. -/
def home100 : State := run1 (.configure 0 { noChange with homeNeedle := some 100 }) setUp

/-- ConfigureTaken: the examples of R176, each field that a refusal names, and values at the ends of their ranges. -/
theorem witness_ConfigureTaken :
    takesRequests setUp ∧ payloadOf (.configure 0 noChange) (inState setUp .ready none) = some [0] ∧
    payloadOf (.configure 0 { noChange with reserved := 1, systems := some 0 }) setUp = some [0] ∧
    payloadOf (.configure 0 { noChange with systems := some 0, urgency := some 48 }) setUp = some [2] ∧
    payloadOf (.configure 0 { noChange with urgency := some 48 }) setUp = some [15] ∧
    codeOf (.configure 0 { noChange with urgency := some 47 }) setUp = some .ok ∧
    payloadOf (.configure 0 { noChange with bedWidth := some 64 }) home100 = some [4] ∧
    payloadOf (.configure 0 { noChange with fastLimit := some 800 }) setUp = some [13] ∧
    payloadOf (.configure 0 { noChange with bedWidth := some 159 }) setUp = some [1] ∧
    codeOf (.configure 0 { noChange with bedWidth := some 160 }) setUp = some .ok ∧
    payloadOf (.configure 0 { noChange with clearance := some 10 }) (restingAt setUp 1 39) =
      some [11] ∧
    codeOf (.configure 0 { noChange with clearance := some 9 }) (restingAt setUp 1 39) = some .ok ∧
    (run1 (.configure 0 { noChange with systems := some 1 }) setUp).geometry.systems = 1 := by
  decide +kernel

/-- ConfigureTaken: the power-on values of R175 in the bytes of R195. -/
theorem test_geometry_bytes :
    geometryBytes awake.geometry = [0x00, 0x02, 2, 4, 0, 0, 1] ++ List.replicate 48 0 ++
      [2, 4, 4, 2, 0x58, 0x02, 0xBC, 0x02, 0, 8, 0, 0, 0] := by decide +kernel

/-! ### Witnesses: pattern arithmetic and the laws -/

/-- PatternArithmetic: the zone of section 1.1, an own pixel, another slot's with the limit reached and not, and a
limit of 0. -/
theorem witness_PatternArithmetic :
    0 < tile24.width ∧ part40.effective < tile24.width ∧ part40.given.row < tile24.height ∧
    (fields40.map[(0 : Fin 16)]).slot = 0 ∧ (fields40.map[(1 : Fin 16)]).slot ≠ 0 ∧
    0 < fields40.floatLimit ∧ 5 < fields40.floatLimit ∧ 5 + 1 = fields40.floatLimit ∧
    4 + 1 ≠ fields40.floatLimit ∧ (0 : Int) < 24 ∧ floorMod (-7) 24 = 17 ∧ floorDiv (-7) 24 = -1 := by
  decide +kernel

/-- With a request at the front of the queue. -/
def asked (s : State) : State := s.withPending [.mark 0 6]

/-- A part in KNITTING with a plan queued behind the active one. -/
def twoPlans : State :=
  let s := knittingAt 50 .opened
  { s with engine := { s.engine with queue := [{ plan0 with direction := .left }] } }

/-- PlanLaw: a part in KNITTING with a plan queued. -/
theorem witness_PlanLaw : planLaw (asked twoPlans) ∧ (step (asked twoPlans) matches .next _) = true := by
  refine ⟨⟨by decide, rfl, ?_⟩, by decide +kernel⟩
  intro r hr
  have e : r = run0 (some .opened) := List.mem_singleton.mp hr
  subst e
  rfl

/-- PositionLaw: the carriage at the end of its range. -/
theorem witness_PositionLaw :
    let s := (carriageAt awake 1535).withPending [countRight]
    positionLaw s ∧ (step s matches .next _) = true := by
  unfold positionLaw; decide +kernel

/-- A part whose HALT_INPUT record counts 255. -/
def saturated : State :=
  let r : FaultRecord := ⟨true, 255, contextOf awake (Report.plain .haltInput 0)⟩
  { awake with faults := { awake.faults with records := awake.faults.records.set 10 (some r) } }

/-- MemoryAndRecordLaws: a record that counts 255. -/
theorem witness_MemoryAndRecordLaws :
    memoryLaw (asked saturated) ∧ recordLaw (asked saturated) ∧
    (step (asked saturated) matches .next _) = true := by
  refine ⟨rfl, ?_, by decide +kernel⟩
  intro i r hr
  change saturated.faults.records[i] = some r at hr
  have key : ∀ i : Fin 11, saturated.faults.records[i].map (·.count) = none ∨
      saturated.faults.records[i].map (·.count) = some 255 := by decide +kernel
  rcases key i with e | e <;> rw [hr] at e
  · simp at e
  · simp at e
    omega

/-- A front channel that fetches the word of the last needle of its span. -/
def lastFetch : Channel :=
  { Channel.reset with
    span := some ⟨40, 159⟩, preparer := .fetching, next := .at 159, fetch := some ⟨1, 159⟩ }

/-- A back channel that has decided for the last needle of its span. -/
def lastDecision : Channel :=
  { Channel.reset with
    span := some ⟨40, 159⟩, preparer := .finished, next := .past
    queue := [⟨159, .knit, .backing, some 0⟩] }

/-- A part in a course, with the carriage one step before the last needle of the only zone, the pin of system 0
holding carrier 0, and the channels of system 0 as above. -/
def running : State :=
  let s := flying (pinIs (knittingAt 158 .fed) (.holding 0 0 .right)) (.fetch 0 1)
  { s with
    carriers := s.carriers.set 0 { state := .carried 0 0, yarn := 7 }
    front := s.front.set 0 lastFetch
    back := s.back.set 0 lastDecision }

/-- The places of its zone table. -/
theorem running_places (i : Fin 32) : running.zones.places[i] = none ∨
    (i = 0 ∧ running.zones.places[i] = some (.live part40 none)) := by
  revert i; decide +kernel

/-- The places of its directory. -/
theorem running_tiles (i : Fin 64) : running.store.tiles[i] = none ∨
    (i = 0 ∧ running.store.tiles[i] = some tile24) := by
  revert i; decide +kernel

theorem running_memoryLaw : memoryLaw running := rfl

theorem running_recordLaw : recordLaw running := by
  have : ∀ i : Fin 11, running.faults.records[i] = none := by decide +kernel
  intro i r e
  rw [this] at e
  cases e

theorem running_queueLaw : queueLaw running := by unfold queueLaw; decide +kernel

theorem running_coilLaw : coilLaw running := by
  intro bed
  cases bed <;> decide +kernel

theorem running_positionLaw : positionLaw running := by unfold positionLaw; decide +kernel

theorem running_referenceLaw : referenceLaw running := by unfold referenceLaw; decide +kernel

theorem running_tileLaw : tileLaw running := by
  refine ⟨fun i t ht => ?_, fun i j hij t u ht hu => ?_⟩
  · rcases running_tiles i with e | ⟨-, e⟩ <;> rw [e] at ht <;> cases ht
    decide
  · rcases running_tiles i with e | ⟨rfl, e⟩
    · rw [e] at ht; cases ht
    · rcases running_tiles j with f | ⟨rfl, f⟩
      · rw [f] at hu; cases hu
      · exact absurd rfl hij

theorem running_planLaw : planLaw running := by
  refine ⟨by decide, rfl, ?_⟩
  intro r hr
  cases List.mem_singleton.mp hr
  rfl

theorem running_idleLaw : idleLaw running := fun c => absurd (.inr rfl) c

theorem running_zoneLaw : zoneLaw running := by
  refine ⟨fun c => absurd (.inr rfl) c, fun i z r hz hr => ?_, fun i j z y hij hz hy => ?_⟩
  · rcases running_places i with e | ⟨-, e⟩ <;> rw [e] at hz <;> cases hz
    cases hr
    decide
  · rcases running_places i with e | ⟨rfl, e⟩
    · rw [e] at hz; cases hz
    · rcases running_places j with f | ⟨rfl, f⟩
      · rw [f] at hy; cases hy
      · exact absurd rfl hij

theorem running_partLaw : partLaw running := by
  intro i z hz
  rcases running_places i with e | ⟨-, e⟩ <;> rw [e] at hz <;> cases hz
  refine ⟨?_, ⟨fun t ht => ?_, by decide, by decide +kernel, 0, by decide, by decide⟩, fun q hq => by cases hq⟩
  · exact ⟨by decide, by decide, by decide +kernel⟩
  · rw [show running.store.tiles[part40.given.tile] = some tile24 from rfl] at ht
    cases ht
    decide

theorem running_runLaw : runLaw running (course0 (some .fed)) (run0 (some .fed)) :=
  ⟨part40, none, by decide +kernel, by decide, rfl, rfl, rfl, rfl, fun bed => by cases bed <;> decide +kernel⟩

theorem running_courseLaw : courseLaw running := by
  refine ⟨fun p hp => (List.not_mem_nil hp).elim, fun k e => ?_⟩
  cases e
  refine ⟨List.pairwise_singleton _ _, fun r hr => ?_, List.pairwise_singleton _ _⟩
  cases List.mem_singleton.mp hr
  exact running_runLaw

theorem running_pinLaw : pinLaw running := by
  refine ⟨fun c => absurd rfl c, fun k _ e => ?_⟩
  cases e
  have pins : ∀ sys : Fin 4, (sys = 0 ∧ running.pins[sys].state = .holding 0 0 .right) ∨
      (sys ≠ 0 ∧ running.pins[sys].state = .up) := by decide +kernel
  have carriers : ∀ c : Fin 16, (c = 0 ∧ running.carriers[c].state = .carried 0 0) ∨
      (c ≠ 0 ∧ running.carriers[c].state = .absent) := by decide +kernel
  refine ⟨rfl, fun sys => ?_, fun c sys i => ?_, fun i r hr => ?_⟩
  · rcases pins sys with ⟨rfl, e⟩ | ⟨-, e⟩ <;> rw [e]
    · exact ⟨rfl, run0 (some .fed), rfl, rfl, rfl, rfl, by decide +kernel⟩
    · trivial
  · rcases carriers c with ⟨rfl, e⟩ | ⟨hc, e⟩ <;> rcases pins sys with ⟨rfl, f⟩ | ⟨hs, f⟩ <;> rw [e, f]
    · simp [course0]
    · exact ⟨fun h => absurd (CarrierState.carried.inj h).1.symm hs, nofun⟩
    · exact ⟨nofun, fun h => absurd (PinState.holding.inj h).1.symm hc⟩
    · exact ⟨nofun, nofun⟩
  · match i with
    | 0 => cases hr; exact ⟨nofun, fun _ => rfl⟩
    | n + 1 => simp [course0] at hr

theorem running_railLaw : railLaw running := by
  have carriers : ∀ c : Fin 16, ∀ x, running.carriers[c].state ≠ .resting x := by
    have : ∀ c : Fin 16, running.carriers[c].state = .carried 0 0 ∨
      running.carriers[c].state = .absent := by decide +kernel
    intro c x
    rcases this c with e | e <;> rw [e] <;> exact nofun
  refine ⟨fun c x _ h => absurd h (carriers c x), fun k r e hr => ?_⟩
  cases e
  cases List.mem_singleton.mp hr
  exact ⟨by decide +kernel, fun x h => absurd h (carriers _ x), fun x h => absurd h (carriers _ x)⟩

theorem running_orderLaw : orderLaw running := by
  intro k e bed sys
  cases e
  refine ⟨by revert sys; decide +kernel, by revert sys; decide +kernel, ?_⟩
  have idle : ∀ i : Fin 4, i ≠ 0 → running.channel bed i = Channel.reset := by
    cases bed <;> decide +kernel
  by_cases h : sys = 0
  · subst h
    cases bed
    · rw [show running.channel .front 0 = lastFetch from rfl]
      refine ⟨fun i q hq => by simp [lastFetch, Channel.reset] at hq,
        ⟨by decide +kernel, by decide⟩, fun f hf => ?_⟩
      cases hf
      exact ⟨by decide, .inl (by decide +kernel)⟩
    · rw [show running.channel .back 0 = lastDecision from rfl]
      refine ⟨fun i q hq => ?_, by unfold lastDecision; decide +kernel, fun f hf => by cases hf⟩
      match i with
      | 0 => cases hq; decide +kernel
      | n + 1 => simp [lastDecision] at hq
  · rw [idle sys h]
    exact ⟨rfl, rfl, rfl, rfl, rfl⟩

theorem running_preparerLaw : preparerLaw running := by
  refine ⟨fun bed sys => ?_, fun sys => ?_⟩
  · have idle : ∀ i : Fin 4, i ≠ 0 → running.channel bed i = Channel.reset := by
      cases bed <;> decide +kernel
    by_cases h : sys = 0
    · subst h
      cases bed
      · rw [show running.channel .front 0 = lastFetch from rfl]
        exact ⟨rfl, rfl, rfl⟩
      · rw [show running.channel .back 0 = lastDecision from rfl]
        exact ⟨rfl, rfl, rfl⟩
    · rw [idle sys h]
      exact ⟨rfl, rfl, rfl, rfl, rfl⟩
  · by_cases h : sys = 0
    · subst h
      exact ⟨rfl, fun w hw => by cases hw; exact .inr ⟨159, rfl⟩, fun f hf => by cases hf; exact ⟨rfl, rfl⟩,
        nofun⟩
    · have idle : running.front[sys] = Channel.reset ∧ running.back[sys].stale = false := by
        revert h; revert sys; decide +kernel
      rw [idle.1]
      exact ⟨idle.2, fun w hw => absurd (Access.fetch.inj (Option.some.inj hw)).1.symm h, nofun, nofun⟩

/-- The laws together hold of it. -/
theorem running_laws : laws running :=
  ⟨running_memoryLaw, running_recordLaw, running_planLaw, running_positionLaw, running_tileLaw,
    running_referenceLaw, running_queueLaw, running_coilLaw, running_idleLaw, running_zoneLaw,
    running_partLaw, running_courseLaw, running_pinLaw, running_railLaw, running_orderLaw,
    running_preparerLaw⟩

/-- TileLaw: a directory with a tile that a zone names. -/
theorem witness_TileLaw : tileLaw (asked running) ∧ referenceLaw (asked running) ∧
    (step (asked running) matches .next _) = true :=
  ⟨running_tileLaw, running_referenceLaw, by decide +kernel⟩

/-- ZoneLaw: a part in a course. -/
theorem witness_ZoneLaw : zoneLaw (asked running) ∧ laws (asked running) ∧
    (step (asked running) matches .next _) = true :=
  ⟨running_zoneLaw, running_laws, by decide +kernel⟩

/-- QueueLaw: a part in a course whose fetch completes. -/
theorem witness_QueueLaw :
    laws (running.withPending [.storeAccessComplete ⟨0, false⟩]) ∧
    (step (running.withPending [.storeAccessComplete ⟨0, false⟩]) matches .next _) = true :=
  ⟨running_laws, by decide +kernel⟩

/-- PinLaw: a part in a course with a pin that holds a carrier. -/
theorem witness_PinLaw :
    laws (asked running) ∧ (step (asked running) matches .next _) = true ∧
    running.pins[(0 : Fin 4)].state = .holding 0 0 .right ∧
    running.carriers[(0 : Fin 16)].state = .carried 0 0 := ⟨running_laws, by decide +kernel⟩

/-- RailLaw: a request that installs the rail partner of the carrier in the course, a clearance from its travel
interval. -/
theorem witness_RailLaw :
    laws (running.withPending [.installCarrier 0 1 165 0]) ∧
    codeOf (.installCarrier 0 1 165 0) running = some .ok ∧
    codeOf (.installCarrier 0 1 164 0) running = some .overlap := ⟨running_laws, by decide +kernel⟩

/-- ChannelLaws: a part that fetches, one whose coil is forced, and one set up. -/
theorem witness_ChannelLaws :
    let forced := run1 (.forceOutputs 0 0 1 1 2) awake
    queueLaw (asked (fetching false)) ∧ coilLaw (asked forced) ∧ idleLaw (asked setUp) ∧
    (step (asked (fetching false)) matches .next _) = true ∧
    (step (asked forced) matches .next _) = true := by
  refine ⟨?_, ?_, ?_, by decide +kernel, by decide +kernel⟩
  · unfold queueLaw; decide +kernel
  · intro bed
    cases bed <;> decide +kernel
  · intro _ bed
    cases bed <;> decide +kernel

/-- CourseNumberChanges: a step that answers next, and the commands that start the part afresh. -/
theorem witness_CourseNumberChanges :
    (step (awake.withPending [.encoderCount .encA false 250]) matches .next _) = true ∧
    startsAfresh .reset ∧ startsAfresh (.restart ⟨3, noLevels⟩) :=
  ⟨by decide +kernel, .inl rfl, .inr (.inr ⟨⟨3, noLevels⟩, .inl rfl⟩)⟩

/-- KeptByOtherCommands: a command at the front of a queue. -/
theorem witness_KeptByOtherCommands :
    (awake.withPending [.beginRun 1]).pending = [.beginRun 1] ∧
    (step (awake.withPending [.beginRun 1]) matches .next _) = true ∧
    carries (.writeRequest ⟨encodeFrame ⟨0x1F, 7, []⟩, someLevels⟩) (.restart ⟨7, someLevels⟩) :=
  ⟨rfl, by decide +kernel, .inr ⟨_, rfl, by decide +kernel⟩⟩

/-! ### Worked examples of the chapters -/

/-- The geometry of section 11.2. -/
def geometry480 : Geometry :=
  { awake.geometry with
    bedWidth := 480
    pointOffset := ⟨#[12, -12, 12, -12, -8, 8, -8, 8, 0, 0, 0, 0, 0, 0, 0, 0], rfl⟩
    pinOffset := ⟨#[-10, 10, -30, 30, 0, 0, 0, 0], rfl⟩ }

/-- The zone of section 11.2 that is mirrored about needle 200 to 319. -/
def part200m : ZonePart :=
  { part40 with given := { fields40 with left := 200, right := 319, anchor := 320, mirror := true }
                effective := 8 }

/-- The set-up of section 11.2: both zones, six carriers, READY. -/
def worked : State :=
  let s := zoneAt (zoneAt (tileAt { awake with geometry := geometry480 } 0 tile24) 0
    (.live part40 none)) 1 (.live part200m none)
  let s := restingAt (restingAt (restingAt (restingAt s 0 30) 2 25) 6 190) 8 185
  { restingAt (restingAt s 4 170) 10 330 with
    engine := { awake.engine with runState := .ready } }

/-- Plan 1 of section 11.3. -/
def plan1 : Plan :=
  { tag := 1, direction := .right, racking := 0, endPosition := 360
    entries := [entry0, { entry0 with zone := 1, carrier := 6 },
      { entry0 with system := 1, carrier := 2, slot := 1 },
      { entry0 with system := 1, zone := 1, carrier := 8, slot := 1 }] }

/-- Plan 2 of section 11.3. -/
def plan2 : Plan :=
  { tag := 2, direction := .left, racking := 0, endPosition := 0
    entries := [{ entry0 with zone := 1, carrier := 10, slot := 2 },
      { entry0 with system := 1, carrier := 4, slot := 2 }] }

/-- Section 11.3: plan 1's greatest limit is 353, and the end position lies beyond it. -/
theorem test_plan1_end_limit :
    preparationCheck worked plan1 = none ∧
    preparationCheck worked { plan1 with endPosition := 354 } = none ∧
    preparationCheck worked { plan1 with endPosition := 353 } = some ⟨.endShort, none⟩ := by
  decide +kernel

/-- Section 11.3: plan 2's engage points are 332 and 172 and its release points 196 and 36. -/
theorem test_plan2_points :
    plan2.entries.map (fun e => (engageAt worked .left e, releaseAt worked .left e)) =
      [(332, 196), (172, 36)] := by decide +kernel

/-- Section 11.3: plan 2 activates from 332 on, by system 0's point, and not from 331. -/
theorem test_plan2_activation :
    (let s := carriageAt { worked with tracker := { awake.tracker with referenced := true } } 332
     activationCheck s (courseOf s plan2)) = none ∧
    (let s := carriageAt { worked with tracker := { awake.tracker with referenced := true } } 331
     activationCheck s (courseOf s plan2)) = some ⟨.lateStart, some 0⟩ := by decide +kernel

/-- The pixels of row 0 in section 11.2, in words 0 and 1. -/
def row0Words (w : Nat) : BitVec 64 := if w = 0 then 0x0011100220011100 else 0x22

/-- The needles 40 to 87 with their decisions for a slot, the counter going on from needle to needle. -/
def decided (slot : Fin 8) : List (Nat × Decision) :=
  ((List.range' 40 48).foldl (fun (acc : Nat × List (Nat × Decision)) n =>
    let r := segmentRuling part40 tile24 slot (row0Words (part40.wordOf tile24 n)) true acc.1 n
    (r.floatCount, acc.2 ++ [(n, r.decision)])) (0, [])).2

/-- Section 11.3: what F1 knits and ties of the needles 40 to 87. -/
theorem test_F1_decisions :
    (decided 1).filterMap (fun p => if p.2 = .knit then some p.1 else none) =
      [42, 43, 44, 51, 52, 53, 66, 67, 68, 75, 76, 77] ∧
    (decided 1).filterMap (fun p => if p.2 = .tuck then some p.1 else none) =
      [50, 59, 65, 74, 83] := by decide +kernel

/-- Section 11.3: F0 knits 28 of them and ties none. -/
theorem test_F0_decisions :
    ((decided 0).filter (fun p => decide (p.2 = .knit))).length = 28 ∧
    (decided 0).all (fun p => decide (p.2 ≠ .tuck)) = true := by decide +kernel

/-- Section 11.3: in the mirrored zone needle 200 reads column 23 of word 1 and needle 208 column 15 of word 0. -/
theorem test_mirrored_zone :
    (part200m.columnOf tile24 200, part200m.wordOf tile24 200) = (23, 1) ∧
    (part200m.columnOf tile24 208, part200m.wordOf tile24 208) = (15, 0) ∧
    part200m.columnOf tile24 319 = 0 := by decide +kernel

/-- Section 11.3: with β 0 the ordinals 0 and 1 knit the even and the odd back needles; with β 2 the even. -/
theorem test_back_decisions :
    backDecision part40 entry0 0 40 = .knit ∧ backDecision part40 entry0 0 41 = .miss ∧
    backDecision part40 entry0 1 40 = .miss ∧ backDecision part40 entry0 1 41 = .knit ∧
    backDecision { part40 with backingCounter := 2 } entry0 0 40 = .knit := by decide +kernel

/-- R54's example: an edit to a tile of 20 columns leaves r, ρ and the served set at zero and E at 0. -/
theorem test_edit_tile_example :
    let z := { part40 with given := { fields40 with row := 12 }, served := 2 }
    let s := tileAt (zoneAt setUp 0 (.live z none)) 3 { width := 20, height := 40, base := 100, references := 0 }
    let t := run1 (.editZone 0 0 { noEdit with tile := some 3 }) s
    ((t.part? 0).map (fun c => (c.given.row, c.repeatIndex, c.served, c.effective))) =
      some (0, 0, 0, 0) ∧
    (t.store.tiles[(0 : Fin 64)].map (·.references), t.store.tiles[(3 : Fin 64)].map (·.references)) =
      (some 0, some 1) := by decide +kernel

/-- Section 5's example: at 1503 of a bed of 480 a step to the right leaves the position and records ENCODER; a
step to the left takes it to 1502. -/
theorem test_position_limit :
    let s := { carriageAt { awake with geometry := geometry480 } 1503 with
      tracker := { (carriageAt awake 1503).tracker with phase := 3 } }
    (run1 countRight s).tracker.position = 1503 ∧
    (run1 countRight s).faults.records[FaultKind.encoder.number].isSome = true ∧
    (run1 countLeft { s with tracker := { s.tracker with phase := 0 } }).tracker.position = 1502 := by
  decide +kernel

/-- Section 10's example: the bytes of word 526's pixels, loaded and read back. -/
theorem test_word_bytes :
    let bytes : List Byte := [0x11, 0x00, 0x22, 0x03, 0x20, 0x02, 0x12, 0x01]
    let s := run1 (.tileData 0 bytes) (loading [] 39)
    wordOfBytes bytes = 0x0112022003220011 ∧ wordBytes 0x0112022003220011 = bytes ∧
    s.store.inFlight = some (.loadWrite 39 0x0112022003220011) := by decide +kernel

/-- R128, R131: a coil forced to TUCK drives the tuck coil alone, and Begin Run ends the force. -/
theorem test_force_and_begin :
    let s := run1 (.forceOutputs 0 0 1 1 2) awake
    (coilLevel s .back 1 true, coilLevel s .back 1 false) = (true, false) ∧
    s.back[(1 : Fin 4)].coil = .tuck ∧ (run1 (.beginRun 0) s).back[(1 : Fin 4)].coil = .off := by
  decide +kernel

end Sys2Proof.Tests
end

/-! # Pattern arithmetic (chapter 1): columns, words and the decisions of needles -/

namespace Sys2Proof.Machine

/-! ### Floor remainders and columns (R1, R8, R9) -/

/-- R1: for a divisor that is not negative the floor remainder is the Euclidean one. -/
theorem floorMod_eq_emod (x : Int) {y : Int} (hy : 0 ≤ y) : floorMod x y = x % y := by
  rw [floorMod, floorDiv, Int.fdiv_eq_ediv_of_nonneg x hy, Int.emod_def]

theorem unmirrored_cast {width : Nat} (hw : 0 < width) (effective n : Nat) :
    (unmirrored width effective n : Int) = ((n : Int) - effective) % width := by
  rw [unmirrored, floorMod_eq_emod _ (Int.natCast_nonneg width)]
  exact Int.toNat_of_nonneg (Int.emod_nonneg _ (by omega))

theorem unmirrored_lt {width : Nat} (hw : 0 < width) (effective n : Nat) :
    unmirrored width effective n < width := by
  have hlt := Int.emod_lt_of_pos ((n : Int) - effective) (Int.natCast_pos.mpr hw)
  have hcast := unmirrored_cast hw effective n
  omega

/-- R8: the pattern repeats with the tile's width. -/
theorem unmirrored_add_width {width : Nat} (hw : 0 < width) (effective n : Nat) :
    unmirrored width effective (n + width) = unmirrored width effective n := by
  have hsum : ((n + width : Nat) : Int) - effective = (n - effective) + width := by omega
  apply Int.ofNat.inj
  calc (unmirrored width effective (n + width) : Int)
      = ((n - effective) + width) % width := by rw [unmirrored_cast hw, hsum]
    _ = ((n : Int) - effective) % width := Int.add_emod_right _ _
    _ = unmirrored width effective n := (unmirrored_cast hw effective n).symm

namespace ZonePart

variable {z : ZonePart} {t : Tile} (n : Nat)

theorem columnOf_of_not_mirror (hm : z.given.mirror = false) :
    z.columnOf t n = unmirrored t.width z.effective n := by
  simp [columnOf, column, hm]

theorem columnOf_of_mirror (hm : z.given.mirror = true) :
    z.columnOf t n = t.width - 1 - unmirrored t.width z.effective n := by
  simp [columnOf, column, hm]

theorem columnOf_lt_width (hw : 0 < t.width) : z.columnOf t n < t.width := by
  cases hm : z.given.mirror
  case false => exact columnOf_of_not_mirror n hm ▸ unmirrored_lt hw z.effective n
  case true => rw [columnOf_of_mirror n hm]; omega

theorem columnOf_add_width (hw : 0 < t.width) :
    z.columnOf t (n + t.width) = z.columnOf t n := by
  simp only [columnOf, column, unmirrored_add_width hw]

theorem columnOf_cast_of_not_mirror (hw : 0 < t.width) (hm : z.given.mirror = false) :
    (z.columnOf t n : Int) = ((n : Int) - z.effective) % (t.width : Int) := by
  rw [columnOf_of_not_mirror n hm, unmirrored_cast hw]

theorem columnOf_cast_of_mirror (hw : 0 < t.width) (hm : z.given.mirror = true) :
    (z.columnOf t n : Int) = (t.width : Int) - 1 - ((n : Int) - z.effective) % (t.width : Int) := by
  have hlt := unmirrored_lt hw z.effective n
  rw [columnOf_of_mirror n hm, ← unmirrored_cast hw]
  omega

end ZonePart

/-! ### Words and nibbles (R11, R12, R25) -/

theorem pitch_eq_pitchOf (t : Tile) : t.pitch = pitchOf t.width := rfl

/-- R25: a column of the tile stands in one of the words of a row. -/
theorem div_sixteen_lt_pitchOf {u width : Nat} (hu : u < width) : u / 16 < pitchOf width := by
  rw [pitchOf]
  omega

/-- R25: a word of a row of the tile stands in its extent. -/
theorem inExtent_row_word {t : Tile} {row k : Nat} (hrow : row < t.height)
    (hk : k < pitchOf t.width) : inExtent t (t.base + row * pitchOf t.width + k) := by
  have hrows : (row + 1) * pitchOf t.width ≤ t.height * pitchOf t.width :=
    Nat.mul_le_mul_right _ hrow
  rw [Nat.succ_mul] at hrows
  constructor <;> omega

theorem ZonePart.wordOf_eq (z : ZonePart) (t : Tile) (n : Nat) :
    z.wordOf t n = t.base + z.given.row * pitchOf t.width + z.columnOf t n / 16 := by
  rw [wordOf, pitch_eq_pitchOf]

theorem ZonePart.wordOf_inExtent (z : ZonePart) {t : Tile} (n : Nat) (hw : 0 < t.width)
    (hrow : z.given.row < t.height) : inExtent t (z.wordOf t n) := by
  rw [wordOf_eq]
  exact inExtent_row_word hrow (div_sixteen_lt_pitchOf (columnOf_lt_width n hw))

/-- R11: the word's place in its row and the nibble give the column back. -/
theorem ZonePart.column_of_word_and_nibble (z : ZonePart) (t : Tile) (n : Nat) :
    16 * (z.wordOf t n - t.base - z.given.row * pitchOf t.width) + z.nibbleOf t n =
      z.columnOf t n := by
  have hplace : z.wordOf t n - t.base - z.given.row * pitchOf t.width = z.columnOf t n / 16 := by
    rw [wordOf_eq]
    omega
  rw [hplace, nibbleOf, Nat.div_add_mod]

/-! ### Front decisions (R15 to R17) -/

/-- R16: with a float limit of 0 a needle of another slot misses and the counter saturates at 63. -/
theorem floatRuling_zero (count : Nat) :
    floatRuling 0 count = ⟨.miss, .pattern, min (count + 1) 63⟩ := rfl

/-- R17: the counter that comes to the limit ties, and is 0 again. -/
theorem floatRuling_of_limit_reached (count : Nat) :
    floatRuling (count + 1) count = ⟨.tuck, .tie, 0⟩ := by
  simp [floatRuling]

/-- R17: the counter that stays below the limit misses. -/
theorem floatRuling_of_below {limit count : Nat} (h : count + 1 < limit) :
    floatRuling limit count = ⟨.miss, .pattern, count + 1⟩ := by
  rw [floatRuling, if_neg (by omega), if_pos h]

/-- R17: no float grows to a limit above zero. -/
theorem floatRuling_floatCount_lt {limit count : Nat} (h : count < limit) :
    (floatRuling limit count).floatCount < limit := by
  rcases Nat.lt_or_eq_of_le (Nat.succ_le_of_lt h) with hbelow | rfl
  · rwa [floatRuling_of_below hbelow]
  · rw [floatRuling_of_limit_reached]
    exact Nat.succ_pos count

section FrontRuling

variable {z : ZoneFields} {slot : Fin 8} {v : BitVec 4} (count : Nat)

theorem frontRuling_of_own_slot (h : z.map[v.toFin].slot = slot) :
    frontRuling z slot count v = z.map[v.toFin].ownRuling := by
  rw [frontRuling, if_pos h]

theorem frontRuling_of_other_slot (h : z.map[v.toFin].slot ≠ slot) :
    frontRuling z slot count v = floatRuling z.floatLimit count := by
  rw [frontRuling, if_neg h]

end FrontRuling

/-! ### Back decisions (R20, R21) -/

/-- R20: an entry without the back flag misses on the back bed. -/
theorem backDecision_of_not_back (z : ZonePart) {e : Entry} (j b : Nat) (h : e.back = false) :
    backDecision z e j b = .miss := by
  simp [backDecision, h]

/-- R21: the backing rule alone decides, on the sum of the needle, the backing counter and the ordinal. -/
theorem backDecision_of_back (z : ZonePart) {e : Entry} (j b : Nat) (h : e.back = true) :
    backDecision z e j b = (match z.given.backing with
      | .none => .miss
      | .stripe => .knit
      | .birdseye => if (b + z.backingCounter.toNat + j) % 2 = 0 then .knit else .miss
      | .ladder => if (b + z.backingCounter.toNat + j) % z.given.colours = 0 then .knit
          else .miss) :=
  if_pos h

end Sys2Proof.Machine

namespace Sys2Proof.Proofs

open Sys2Proof.Machine

/-- Settles O49: the floor remainder gives the columns, the row pitch the words, and the slot of the pixel's
map entry splits the front decisions into the own stitch and the float rule. -/
theorem patternArithmetic : Obligations.PatternArithmetic := by
  refine ⟨fun x y hy => ?remainder, fun z t n hw _ => ?column, fun z slot count v => ?front,
    fun z e j b => ⟨backDecision_of_not_back z j b, backDecision_of_back z j b⟩⟩
  case remainder =>
    rw [floorMod_eq_emod x hy.le]
    exact ⟨rfl, Int.emod_nonneg x hy.ne', Int.emod_lt_of_pos x hy⟩
  case column =>
    exact ⟨ZonePart.columnOf_lt_width n hw, ZonePart.columnOf_cast_of_not_mirror n hw,
      ZonePart.columnOf_cast_of_mirror n hw, ZonePart.columnOf_add_width n hw, fun hrow =>
        ⟨z.wordOf_inExtent n hw hrow, z.wordOf_eq t n, z.column_of_word_and_nibble t n⟩⟩
  case front =>
    refine ⟨fun hown => ?own, fun hother hlimit => ?unlimited, fun hother _ hcount => ?limited⟩
    case own =>
      rw [frontRuling_of_own_slot count hown]
      exact ⟨rfl, rfl, rfl⟩
    case unlimited =>
      rw [frontRuling_of_other_slot count hother, hlimit, floatRuling_zero]
      exact ⟨rfl, rfl, rfl⟩
    case limited =>
      rw [frontRuling_of_other_slot count hother]
      refine ⟨fun hreached => ?_, fun hbelow => ?_, floatRuling_floatCount_lt hcount⟩
      · rw [← hreached, floatRuling_of_limit_reached]
        exact ⟨rfl, rfl, rfl⟩
      · rw [floatRuling_of_below (by omega)]
        exact ⟨rfl, rfl, rfl⟩

end Sys2Proof.Proofs

/-! # The Tile Store (chapter 2): the arbiter, the loader and the directory's requests -/

namespace Sys2Proof.Machine

/-! ### Who is pending (R36, R37, R40) -/

theorem preparerPending_iff (s : State) (i : Fin 4) :
    preparerPending s i = true ↔ asksForWord s i := Iff.rfl

theorem urgent_iff (s : State) (i : Fin 4) : urgent s i = true ↔ isUrgent s i := by
  rw [urgent, Bool.and_eq_true, decide_eq_true_iff]
  rfl

theorem loaderPending_iff (s : State) : loaderPending s = true ↔ loaderAsks s := by
  rw [loaderPending, loaderAsks, Bool.or_eq_true]
  refine or_congr (by simp) ?_
  cases s.link.request <;> simp

theorem requesterPending_iff (s : State) (r : Requester) :
    requesterPending s r = true ↔ asksForPort s r := by
  cases r with
  | front i => exact preparerPending_iff s i
  | loader => exact loaderPending_iff s

/-- R38: the loader's turn in ALTERNATING mode. -/
theorem loaderTurn_iff (s : State) :
    (loaderPending s && decide (s.store.lastGranted ≠ .loader)) = true ↔
      loaderAsks s ∧ s.store.lastGranted ≠ .loader := by
  rw [Bool.and_eq_true, decide_eq_true_iff, loaderPending_iff]

/-! ### Searches in circular order (R37, R39) -/

/-- In a list of rising turns a search finds the member with the least turn of those it looks for. -/
theorem find?_eq_some_of_least_turn {α : Type} {l : List α} {p : α → Bool} {turn : α → Nat} {x : α}
    (hl : l.Pairwise (fun a b => turn a < turn b)) (hmem : x ∈ l) (hx : p x = true)
    (hleast : ∀ y, p y = true → turn x ≤ turn y) : l.find? p = some x := by
  obtain ⟨earlier, later, rfl⟩ := List.append_of_mem hmem
  refine List.find?_eq_some_iff_append.mpr ⟨hx, earlier, later, rfl, fun y hy => ?_⟩
  have hturn : turn y < turn x := (List.pairwise_append.mp hl).2.2 y hy x List.mem_cons_self
  rw [Bool.not_eq_true', Bool.eq_false_iff]
  exact fun hpy => (hleast y hpy).not_gt hturn

theorem preparersAfter_pairwise (last : Fin 4) :
    (preparersAfter last).Pairwise (fun i j => turnAfter last i < turnAfter last j) := by
  revert last
  decide

theorem mem_preparersAfter (last i : Fin 4) : i ∈ preparersAfter last := by
  revert last i
  decide

theorem requestersAfter_pairwise (last : Requester) :
    (requestersAfter last).Pairwise (fun q r => circleTurn last q < circleTurn last r) := by
  cases last with
  | front i => revert i; decide
  | loader => decide

theorem mem_requestersAfter (last r : Requester) : r ∈ requestersAfter last := by
  cases last with
  | front i =>
    cases r with
    | front j => revert i j; decide
    | loader => revert i; decide
  | loader =>
    cases r with
    | front j => revert j; decide
    | loader => decide

/-- R37: round from the one after `last`, the search comes to the least turn first. -/
theorem find?_preparersAfter {p : Fin 4 → Bool} {last i : Fin 4} (hi : p i = true)
    (hleast : ∀ j, p j = true → turnAfter last i ≤ turnAfter last j) :
    (preparersAfter last).find? p = some i :=
  find?_eq_some_of_least_turn (preparersAfter_pairwise last) (mem_preparersAfter last i) hi hleast

/-! ### The arbiter (R37 to R39) -/

section Arbiter

variable {s : State}

theorem arbiterChoice_of_urgent {i : Fin 4} (hi : isUrgent s i)
    (hleast : ∀ j, isUrgent s j →
      turnAfter s.store.lastPreparer i ≤ turnAfter s.store.lastPreparer j) :
    arbiterChoice s = some (.front i) := by
  have hfind : (preparersAfter s.store.lastPreparer).find? (urgent s) = some i :=
    find?_preparersAfter ((urgent_iff s i).mpr hi) fun j hj => hleast j ((urgent_iff s j).mp hj)
  rw [arbiterChoice, hfind]

/-- R38, R39: with nobody urgent the mode decides. -/
theorem arbiterChoice_of_no_urgent (h : ∀ i, ¬ isUrgent s i) :
    (s.geometry.arbiterMode = .alternating → arbiterChoice s = chooseAlternating s) ∧
    (s.geometry.arbiterMode = .rotating → arbiterChoice s = chooseRotating s) := by
  have hfind : (preparersAfter s.store.lastPreparer).find? (urgent s) = none :=
    List.find?_eq_none.mpr fun i _ hi => h i ((urgent_iff s i).mp hi)
  constructor <;> intro hmode <;> rw [arbiterChoice, hfind, hmode]

theorem chooseAlternating_of_loader_turn (hturn : loaderAsks s ∧ s.store.lastGranted ≠ .loader) :
    chooseAlternating s = some .loader := by
  rw [chooseAlternating, if_pos ((loaderTurn_iff s).mpr hturn)]

theorem chooseAlternating_of_preparer (hturn : ¬ (loaderAsks s ∧ s.store.lastGranted ≠ .loader))
    {i : Fin 4} (hi : asksForWord s i) (hleast : ∀ j, asksForWord s j →
      turnAfter s.store.lastPreparer i ≤ turnAfter s.store.lastPreparer j) :
    chooseAlternating s = some (.front i) := by
  have hfind : (preparersAfter s.store.lastPreparer).find? (preparerPending s) = some i :=
    find?_preparersAfter hi hleast
  rw [chooseAlternating, if_neg (mt (loaderTurn_iff s).mp hturn), hfind]

theorem chooseAlternating_of_no_preparer (h : ∀ i, ¬ asksForWord s i) :
    chooseAlternating s = if loaderPending s then some .loader else none := by
  by_cases hturn : loaderAsks s ∧ s.store.lastGranted ≠ .loader
  · rw [chooseAlternating_of_loader_turn hturn, if_pos ((loaderPending_iff s).mpr hturn.1)]
  · have hfind : (preparersAfter s.store.lastPreparer).find? (preparerPending s) = none :=
      List.find?_eq_none.mpr fun i _ => h i
    rw [chooseAlternating, if_neg (mt (loaderTurn_iff s).mp hturn), hfind]

theorem chooseRotating_of_least {r : Requester} (hr : asksForPort s r)
    (hleast : ∀ q, asksForPort s q →
      circleTurn s.store.lastGranted r ≤ circleTurn s.store.lastGranted q) :
    chooseRotating s = some r :=
  find?_eq_some_of_least_turn (requestersAfter_pairwise _) (mem_requestersAfter _ r)
    ((requesterPending_iff s r).mpr hr) fun q hq => hleast q ((requesterPending_iff s q).mp hq)

theorem not_isUrgent_of_not_asksForWord (h : ∀ i, ¬ asksForWord s i) (i : Fin 4) : ¬ isUrgent s i :=
  fun hi => h i hi.1

/-- R36: the arbiter grants nobody where nobody is pending. -/
theorem arbiterChoice_of_nobody (h : ∀ r, ¬ asksForPort s r) : arbiterChoice s = none := by
  have hword : ∀ i, ¬ asksForWord s i := fun i => h (.front i)
  obtain ⟨halt, hrot⟩ := arbiterChoice_of_no_urgent (not_isUrgent_of_not_asksForWord hword)
  cases hmode : s.geometry.arbiterMode with
  | alternating =>
    rw [halt hmode, chooseAlternating_of_no_preparer hword, if_neg]
    exact fun hl => h .loader ((loaderPending_iff s).mp hl)
  | rotating =>
    rw [hrot hmode, chooseRotating, List.find?_eq_none]
    exact fun r _ hr => h r ((requesterPending_iff s r).mp hr)

/-- R38, R39: a loader that asks alone is granted in both modes. -/
theorem arbiterChoice_of_loader_alone (h : ∀ i, ¬ asksForWord s i) (hl : loaderAsks s) :
    arbiterChoice s = some .loader := by
  obtain ⟨halt, hrot⟩ := arbiterChoice_of_no_urgent (not_isUrgent_of_not_asksForWord h)
  cases hmode : s.geometry.arbiterMode with
  | alternating =>
    rw [halt hmode, chooseAlternating_of_no_preparer h, if_pos ((loaderPending_iff s).mpr hl)]
  | rotating =>
    rw [hrot hmode]
    refine chooseRotating_of_least hl fun q hq => ?_
    cases q with
    | front i => exact absurd hq (h i)
    | loader => exact le_rfl

end Arbiter

/-! ### A write of the loader completes (R33) -/

theorem Tile.limit_eq (t : Tile) : t.limit = t.base + t.height * pitchOf t.width := rfl

theorem cursorAtEnd_iff {s : State} {c : Cursor} {t : Tile} (hc : s.store.cursor = some c)
    (ht : s.store.tiles[c.tile] = some t) :
    cursorAtEnd s = true ↔ c.next = t.base + t.height * pitchOf t.width := by
  have htile : s.tile? c.tile = some t := ht
  rw [← Tile.limit_eq]
  simp only [cursorAtEnd, hc, htile, decide_eq_true_iff]

/-- R33: what the completed write leaves before the port is granted again. -/
def landedWrite (s : State) (w : Nat) (d : BitVec 64) : State :=
  let drained := s.store.buffer.tail.isEmpty
  { s with
    store := { s.store with
      memory := storeWord s.store.memory w (goodWord d)
      buffer := s.store.buffer.tail
      inFlight := none
      cursor := if drained && cursorAtEnd s then none else s.store.cursor }
    faults := { s.faults with loadEmpty := s.faults.loadEmpty || drained } }

/-- R33: the drained buffer sets LOAD_EMPTY and may close the cursor; a buffer with words changes nothing. -/
theorem bufferDrained_eq (s : State) :
    bufferDrained s = { s with
      store := { s.store with
        cursor := if s.store.buffer.isEmpty && cursorAtEnd s then none else s.store.cursor }
      faults := { s.faults with loadEmpty := s.faults.loadEmpty || s.store.buffer.isEmpty } } := by
  have hend : cursorAtEnd (setLoadEmpty s) = cursorAtEnd s := rfl
  cases hb : s.store.buffer.isEmpty with
  | false => simp [bufferDrained, hb]
  | true =>
    rw [bufferDrained, if_pos hb, closeCursor, hend]
    cases cursorAtEnd s <;> simp [setLoadEmpty, State.withFaults, State.withStore]

theorem loadWritten_eq (w : Nat) (d : BitVec 64) (s : State) :
    loadWritten w d s = pump (landedWrite s w d) := by
  rw [loadWritten, bufferDrained_eq]
  rfl

theorem exec_storeAccessComplete_loadWrite {s : State} {w : Nat} {d : BitVec 64}
    (hreset : s.inReset = false) (hflight : s.store.inFlight = some (.loadWrite w d))
    (hw : w < memorySize) (u : PixelWord) :
    exec (.storeAccessComplete u) s = .next (pump (landedWrite s w d)) := by
  have hword : (Access.loadWrite w d).word < memorySize := hw
  simp only [exec, execStoreAccessComplete, hreset, storeAccessComplete, hflight, if_pos hword,
    completeAccess, loadWritten_eq, Bool.false_eq_true, if_false]

/-! ### The next grant of the loader (R36, R40) -/

/-- R117: without a course no preparer runs. -/
theorem refillAll_of_no_course {s : State} (h : s.engine.course = none) : refillAll s = s := by
  have hrefill : ∀ bed sys, refill s bed sys = s := fun bed sys => by rw [refill, h]
  simp only [refillAll, allChannels, List.foldl_cons, List.foldl_nil, hrefill]

/-- R40: a free port that only the loader asks for takes the write of its oldest word. -/
theorem pump_store_of_loader_alone {s : State} {w : Nat} {d : BitVec 64}
    {rest : List (Nat × BitVec 64)} (hcourse : s.engine.course = none)
    (hfree : s.store.inFlight = none) (hask : ∀ i, ¬ asksForWord s i)
    (hbuffer : s.store.buffer = (w, d) :: rest) :
    (pump s).store = { s.store with
      inFlight := some (.loadWrite w d), lastGranted := .loader } := by
  have hloader : loaderAsks s := .inl (by simp [hbuffer])
  rw [pump, refillAll_of_no_course hcourse, grant, hfree]
  simp only [arbiterChoice_of_loader_alone hask hloader, grantLoader, hbuffer, State.withStore_store]

/-! ### Retire Tile and Load Tile (R28, R31) -/

theorem idOf_eq_none {n : Nat} {b : Byte} (h : n ≤ b.toNat) : idOf n b = none :=
  dif_neg h.not_gt

theorem idOf_eq_some {n : Nat} {b : Byte} {i : Fin n} (h : b.toNat = i.val) : idOf n b = some i := by
  have hlt : b.toNat < n := h ▸ i.isLt
  rw [idOf, dif_pos hlt, Option.some.injEq]
  exact Fin.ext h

theorem cursorOpen_iff (s : State) (i : Fin 64) :
    s.cursorOpen i = true ↔ ∃ c, s.store.cursor = some c ∧ c.tile = i := by
  rw [State.cursorOpen, decide_eq_true_iff, Option.map_eq_some_iff]

section Requests

variable {s : State} {id : Byte} {i : Fin 64} {t : Tile} {row : Half}

theorem retireTile_of_no_id (h : 64 ≤ id.toNat) : retireTile id s = (s, refuse .range) := by
  rw [retireTile, idOf_eq_none h]

theorem retireTile_of_no_record (hid : id.toNat = i.val) (ht : s.store.tiles[i] = none) :
    retireTile id s = (s, refuse .noRecord) := by
  have htile : s.tile? i = none := ht
  simp only [retireTile, idOf_eq_some hid, htile]

/-- R28: the checks on a record, in their order. -/
theorem retireTile_of_record (hid : id.toNat = i.val) (ht : s.store.tiles[i] = some t) :
    retireTile id s =
      if t.references ≠ 0 then (s, refuse .inUse)
      else if s.cursorOpen i then (s, refuse .busy)
      else (setTile s i none, okWith []) := by
  have htile : s.tile? i = some t := ht
  simp only [retireTile, idOf_eq_some hid, htile]

theorem loadTile_of_no_id (h : 64 ≤ id.toNat) : loadTile id row s = (s, refuse .range) := by
  rw [loadTile, idOf_eq_none h]

theorem loadTile_of_no_record (hid : id.toNat = i.val) (ht : s.store.tiles[i] = none) :
    loadTile id row s = (s, refuse .noRecord) := by
  have htile : s.tile? i = none := ht
  simp only [loadTile, idOf_eq_some hid, htile]

/-- R31: the checks on a record, in their order, and the cursor's next word B + row·p. -/
theorem loadTile_of_record (hid : id.toNat = i.val) (ht : s.store.tiles[i] = some t) :
    loadTile id row s =
      if t.height ≤ row.toNat then (s, refuse .range)
      else if t.references ≠ 0 then (s, refuse .inUse)
      else if s.store.buffer ≠ [] then (s, refuse .busy)
      else (s.withStore { s.store with
        cursor := some ⟨i, t.base + row.toNat * pitchOf t.width⟩ }, okWith []) := by
  have htile : s.tile? i = some t := ht
  have hrow : t.rowWord row.toNat = t.base + row.toNat * pitchOf t.width := rfl
  simp [loadTile, idOf_eq_some hid, htile, hrow]

/-- R28, R194: what Retire Tile refuses leaves the part as it was. -/
theorem exec_retireTile_refused {tag : Byte} {code : ResultCode} (h : takesRequests s)
    (e : retireTile id (openFrame s) = (openFrame s, refuse code)) :
    exec (.retireTile tag id) s = .next (refusedWith s tag code) :=
  congrArg Host.Outcome.next (serve_refused h e)

/-- R31, R194: what Load Tile refuses leaves the part as it was. -/
theorem exec_loadTile_refused {tag : Byte} {code : ResultCode} (h : takesRequests s)
    (e : loadTile id row (openFrame s) = (openFrame s, refuse code)) :
    exec (.loadTile tag id row) s = .next (refusedWith s tag code) :=
  congrArg Host.Outcome.next (serve_refused h e)

end Requests

end Sys2Proof.Machine

namespace Sys2Proof.Proofs

open Sys2Proof.Machine

/-- Settles O34: the completed write leaves `landedWrite`, and the port's next grant touches neither memory nor
buffer; without a course and a preparer that asks, that grant is the loader's. -/
theorem loadWriteCompletes : Obligations.LoadWriteCompletes := by
  intro u s w d hreset hmem hflight hw
  refine ⟨pump (landedWrite s w d), exec_storeAccessComplete_loadWrite hreset hflight hw u, ?_⟩
  have hstored : readWord (pump (landedWrite s w d)).store.memory w = goodWord d := by
    rw [pump_store_memory]
    exact readWord_storeWord_same w (goodWord d) hmem
  rw [hstored]
  simp only [pump_store_buffer, pump_store_tiles, pump_zones, pump_carriers, pump_pins, pump_tracker,
    pump_geometry, pump_faults, pump_store_cursor]
  refine ⟨rfl, parityPasses_goodWord d, rfl, rfl, rfl, rfl, rfl, rfl, rfl, rfl,
    fun hempty => ?drained, fun hwords => ?words, fun w' d' rest hnext hcourse hask => ?next⟩
  case drained =>
    refine ⟨by simp [landedWrite, hempty], fun c t hc ht => ⟨fun hend => ?_, fun hbelow => ?_⟩⟩
    · simp [landedWrite, hempty, (cursorAtEnd_iff hc ht).mpr hend]
    · have hopen : cursorAtEnd s = false :=
        Bool.eq_false_iff.mpr fun h => hbelow ((cursorAtEnd_iff hc ht).mp h)
      simp [landedWrite, hopen]
  case words =>
    simp [landedWrite, hwords]
  case next =>
    have hport := pump_store_of_loader_alone (s := landedWrite s w d) hcourse rfl hask hnext
    rw [hport]
    exact ⟨rfl, rfl⟩

/-- Settles O37: each search goes round in rising turns, so it finds the pending one with the least turn. -/
theorem arbiterChooses : Obligations.ArbiterChooses := by
  refine fun s => ⟨fun i => arbiterChoice_of_urgent, fun hnone => ?_⟩
  obtain ⟨halt, hrot⟩ := arbiterChoice_of_no_urgent hnone
  refine ⟨fun hmode => ?alternating, fun hmode r => ?rotating, arbiterChoice_of_nobody⟩
  case alternating =>
    rw [halt hmode]
    exact ⟨fun hl hlast => chooseAlternating_of_loader_turn ⟨hl, hlast⟩, fun hturn =>
      ⟨fun i => chooseAlternating_of_preparer hturn, fun hask hl => by
        rw [chooseAlternating_of_no_preparer hask, if_pos ((loaderPending_iff s).mpr hl)]⟩⟩
  case rotating =>
    rw [hrot hmode]
    exact chooseRotating_of_least

/-- Settles O39: each check of the two requests is one branch of the block's answer, in the order of the rules. -/
theorem retireAndLoadTile : Obligations.RetireAndLoadTile := by
  intro tag id row s htakes
  refine ⟨fun hno => ⟨exec_retireTile_refused htakes (retireTile_of_no_id hno),
    exec_loadTile_refused htakes (loadTile_of_no_id hno)⟩, fun i hid => ⟨fun hnone =>
      ⟨exec_retireTile_refused htakes (retireTile_of_no_record hid hnone),
        exec_loadTile_refused htakes (loadTile_of_no_record hid hnone)⟩, fun t ht => ?_⟩⟩
  have hretire := retireTile_of_record (s := openFrame s) hid ht
  have hload := loadTile_of_record (s := openFrame s) (row := row) hid ht
  refine ⟨fun hused => ?retireUsed, fun hfree => ⟨fun hopen => ?retireOpen, fun hclosed => ?retired⟩,
    fun hrow => ?loadRow, fun hrow => ⟨fun hused => ?loadUsed, fun hfree =>
      ⟨fun hbuffer => ?loadBusy, fun hbuffer => ?loaded⟩⟩⟩
  case retireUsed =>
    exact exec_retireTile_refused htakes (hretire.trans (if_pos hused.ne'))
  case retireOpen =>
    have hcursor : (openFrame s).cursorOpen i = true := (cursorOpen_iff s i).mpr hopen
    refine exec_retireTile_refused htakes (hretire.trans ?_)
    rw [if_neg (not_not.mpr hfree), if_pos hcursor]
  case retired =>
    have hcursor : ¬ (openFrame s).cursorOpen i = true := fun h =>
      have ⟨c, hc, hi⟩ := (cursorOpen_iff s i).mp h
      hclosed c hc hi
    refine congrArg Host.Outcome.next (serve_answered htakes (hretire.trans ?_))
    rw [if_neg (not_not.mpr hfree), if_neg hcursor]
    rfl
  case loadRow =>
    exact exec_loadTile_refused htakes (hload.trans (if_pos hrow))
  case loadUsed =>
    refine exec_loadTile_refused htakes (hload.trans ?_)
    rw [if_neg hrow.not_ge, if_pos hused.ne']
  case loadBusy =>
    refine exec_loadTile_refused htakes (hload.trans ?_)
    rw [if_neg hrow.not_ge, if_neg (not_not.mpr hfree)]
    exact if_pos hbuffer
  case loaded =>
    refine congrArg Host.Outcome.next (serve_answered htakes (hload.trans ?_))
    rw [if_neg hrow.not_ge, if_neg (not_not.mpr hfree)]
    exact if_neg (not_not.mpr hbuffer)

end Sys2Proof.Proofs

/-! # The zone table (chapter 3): the row advance, Retire Zone and Mark -/

namespace Sys2Proof.Machine

/-! ### The served set (R59, R60) -/

theorem addSlots_getLsbD (served : BitVec 8) (slots : List (Fin 8)) (j : Fin 8) :
    (addSlots served slots).getLsbD j.val = (served.getLsbD j.val || decide (j ∈ slots)) := by
  have hbit : ∀ i : Fin 8, ((1 : BitVec 8) <<< i.val).getLsbD j.val = decide (j = i) := by
    revert j
    decide
  induction slots generalizing served with
  | nil => simp [addSlots]
  | cons i slots ih =>
    have hcons : addSlots served (i :: slots) =
        addSlots (served ||| ((1 : BitVec 8) <<< i.val)) slots := rfl
    rw [hcons, ih, BitVec.getLsbD_or, hbit, Bool.or_assoc]
    simp only [List.mem_cons, Bool.decide_or]

theorem servedFull_iff (served : BitVec 8) (colours : Nat) :
    servedFull served colours = true ↔
      ∀ j : Fin 8, j.val < colours → served.getLsbD j.val = true := by
  simp only [servedFull, List.all_eq_true, List.mem_range, Bool.or_eq_true, decide_eq_true_iff]
  exact ⟨fun h j hj => (h j.val j.isLt).resolve_left hj.not_ge, fun h i hi =>
    (Nat.lt_or_ge i colours).elim (fun hlt => .inr (h ⟨i, hi⟩ hlt)) .inl⟩

/-- R60: the set is full when each slot below k is served already or by a DONE entry. -/
theorem servedFull_addSlots_iff (served : BitVec 8) (slots : List (Fin 8)) (colours : Nat) :
    servedFull (addSlots served slots) colours = true ↔
      ∀ j : Fin 8, j.val < colours → served.getLsbD j.val = true ∨ j ∈ slots := by
  simp only [servedFull_iff, addSlots_getLsbD, Bool.or_eq_true, decide_eq_true_iff]

/-! ### The row advance of a current part (R60, R61) -/

section Advance

variable {z : ZonePart} {width height : Nat} {done : List (Fin 8)}

theorem repeatStep_of_repeats_left (h : z.repeatIndex + 1 ≠ z.given.repeats) :
    repeatStep z width height = { z with served := 0, repeatIndex := z.repeatIndex + 1 } := by
  rw [repeatStep, if_neg h]

theorem repeatStep_of_rows_left (h : z.repeatIndex + 1 = z.given.repeats)
    (hrow : z.given.row + 1 ≠ height) :
    repeatStep z width height = { z with
      served := 0, repeatIndex := 0, given := { z.given with row := z.given.row + 1 } } := by
  rw [repeatStep, if_pos h, if_neg hrow]

theorem repeatStep_of_last_row (h : z.repeatIndex + 1 = z.given.repeats)
    (hrow : z.given.row + 1 = height) :
    repeatStep z width height = { z with
      served := 0, repeatIndex := 0, given := { z.given with row := 0 }
      effective := (floorMod (z.effective + z.given.shift) width).toNat } := by
  rw [repeatStep, if_pos h, if_pos hrow]

theorem repeatStep_served (z : ZonePart) (width height : Nat) :
    (repeatStep z width height).served = 0 := by
  unfold repeatStep
  split
  · split <;> rfl
  · rfl

theorem repeatStep_backingCounter (z : ZonePart) (width height : Nat) :
    (repeatStep z width height).backingCounter = z.backingCounter := by
  unfold repeatStep
  split
  · split <;> rfl
  · rfl

/-- R59: a zone that still owes a slot keeps all but its served set and its backing counter. -/
theorem advancePart_of_owed (h : ¬ servedFull (addSlots z.served done) z.given.colours = true) :
    advancePart z width height done = { z with
      served := addSlots z.served done
      backingCounter := z.backingCounter + BitVec.ofNat 8 done.length } := by
  simp only [advancePart, if_neg h]

/-- R60, R61: a zone that owes none takes a repeat step, whatever its served set holds. -/
theorem advancePart_of_full (h : servedFull (addSlots z.served done) z.given.colours = true) :
    advancePart z width height done = { repeatStep z width height with
      backingCounter := z.backingCounter + BitVec.ofNat 8 done.length } := by
  have hstep : repeatStep { z with served := addSlots z.served done } width height =
      repeatStep z width height := rfl
  simp only [advancePart, if_pos h, hstep, repeatStep_backingCounter]

end Advance

/-! ### The row advance of the table (R59) -/

/-- A row advance of one zone writes that zone's place at most. -/
theorem advanceZone_cases (k : Course) (s : State) (i : Fin 32) :
    advanceZone k s i = s ∨ ∃ z, advanceZone k s i = setZone s i z := by
  unfold advanceZone
  split
  · split
    · split
      · exact .inr ⟨_, rfl⟩
      · exact .inl rfl
    · exact .inl rfl
  · exact .inl rfl

theorem setZone_place_other (s : State) {i j : Fin 32} (z : Option Zone) (h : j ≠ i) :
    (setZone s i z).zones.places[j] = s.zones.places[j] := by
  have hval : i.val ≠ j.val := fun e => h (Fin.ext e.symm)
  simp [setZone, hval]

theorem setZone_place_same (s : State) (i : Fin 32) (z : Option Zone) :
    (setZone s i z).zones.places[i] = z := by
  simp [setZone]

theorem advanceZone_place_other (k : Course) (s : State) {i j : Fin 32} (h : j ≠ i) :
    (advanceZone k s i).zones.places[j] = s.zones.places[j] := by
  obtain hs | ⟨z, hs⟩ := advanceZone_cases k s i
  · rw [hs]
  · rw [hs, setZone_place_other s z h]

theorem advanceZone_withZones (k : Course) (s : State) (i : Fin 32) (t : ZoneTable) :
    (advanceZone k s i).withZones t = s.withZones t := by
  obtain hs | ⟨z, hs⟩ := advanceZone_cases k s i <;> rw [hs]
  rfl

theorem advanceZone_marks (k : Course) (s : State) (i : Fin 32) :
    (advanceZone k s i).zones.pendingMark = s.zones.pendingMark ∧
    (advanceZone k s i).zones.lastMark = s.zones.lastMark := by
  obtain hs | ⟨z, hs⟩ := advanceZone_cases k s i <;> rw [hs] <;> exact ⟨rfl, rfl⟩

theorem Course.namesZone_iff (k : Course) (i : Fin 32) :
    k.namesZone i = true ↔ ∃ r ∈ k.runs, r.entry.zone = i := by
  simp only [namesZone, List.any_eq_true, decide_eq_true_iff]

theorem advanceZone_of_not_named {k : Course} {i : Fin 32} (h : ∀ r ∈ k.runs, r.entry.zone ≠ i)
    (s : State) : advanceZone k s i = s := by
  have hnamed : ¬ k.namesZone i = true := fun hk =>
    have ⟨r, hr, hi⟩ := (k.namesZone_iff i).mp hk
    h r hr hi
  rw [advanceZone, if_neg hnamed]

/-- R59: a zone that the plan names has its current part advanced by the size of its tile. -/
theorem advanceZone_place_of_named {k : Course} {s : State} {i : Fin 32} {z : Zone} {c : ZonePart}
    {t : Tile} (hz : s.zones.places[i] = some z) (hc : z.current? = some c)
    (ht : s.store.tiles[c.given.tile] = some t) (h : ∃ r ∈ k.runs, r.entry.zone = i) :
    (advanceZone k s i).zones.places[i] =
      some (z.withCurrent (advancePart c t.width t.height (doneSlots k i))) := by
  have hzone : s.zone? i = some z := hz
  have htile : s.tile? c.given.tile = some t := ht
  rw [advanceZone, if_pos ((k.namesZone_iff i).mpr h)]
  simp only [hzone, hc, State.widthOf, State.heightOf, htile, setZone_place_same]

theorem foldl_advanceZone_place_other (k : Course) {l : List (Fin 32)} (s : State) {i : Fin 32}
    (h : i ∉ l) : (l.foldl (advanceZone k) s).zones.places[i] = s.zones.places[i] := by
  induction l generalizing s with
  | nil => rfl
  | cons a l ih =>
    rw [List.mem_cons, not_or] at h
    rw [List.foldl_cons, ih _ h.2, advanceZone_place_other k s h.1]

theorem foldl_advanceZone_withZones (k : Course) (l : List (Fin 32)) (s : State) (t : ZoneTable) :
    (l.foldl (advanceZone k) s).withZones t = s.withZones t :=
  foldl_keeps (fun s : State => s.withZones t) (fun s i => advanceZone_withZones k s i t) l s

/-- R59: each zone is advanced once, in a state with the same tiles and the same zone. -/
theorem rowAdvance_place (s : State) (k : Course) (i : Fin 32) :
    ∃ s' : State, s'.store = s.store ∧ s'.zones.places[i] = s.zones.places[i] ∧
      (rowAdvance s k).zones.places[i] = (advanceZone k s' i).zones.places[i] := by
  obtain ⟨before, after, hlist⟩ := List.append_of_mem (List.mem_finRange i)
  have hnodup : (before ++ i :: after).Nodup := hlist ▸ List.nodup_finRange 32
  have hnotin : i ∉ before ++ after := (List.nodup_middle.mp hnodup).notMem
  rw [List.mem_append, not_or] at hnotin
  obtain ⟨hbefore, hafter⟩ := hnotin
  refine ⟨before.foldl (advanceZone k) s, ?_, foldl_advanceZone_place_other k s hbefore, ?_⟩
  · simpa using congrArg State.store (foldl_advanceZone_withZones k before s s.zones)
  · rw [rowAdvance, hlist, List.foldl_append, List.foldl_cons,
      foldl_advanceZone_place_other k _ hafter]

theorem rowAdvance_place_of_not_named {k : Course} {i : Fin 32}
    (h : ∀ r ∈ k.runs, r.entry.zone ≠ i) (s : State) :
    (rowAdvance s k).zones.places[i] = s.zones.places[i] := by
  obtain ⟨s', -, hplace, hrow⟩ := rowAdvance_place s k i
  rw [hrow, advanceZone_of_not_named h, hplace]

theorem rowAdvance_place_of_named {k : Course} {s : State} {i : Fin 32} {z : Zone} {c : ZonePart}
    {t : Tile} (hz : s.zones.places[i] = some z) (hc : z.current? = some c)
    (ht : s.store.tiles[c.given.tile] = some t) (h : ∃ r ∈ k.runs, r.entry.zone = i) :
    (rowAdvance s k).zones.places[i] =
      some (z.withCurrent (advancePart c t.width t.height (doneSlots k i))) := by
  obtain ⟨s', hstore, hplace, hrow⟩ := rowAdvance_place s k i
  rw [hrow]
  exact advanceZone_place_of_named (hplace.trans hz) hc (hstore ▸ ht) h

/-! ### Retire Zone (R56, R57) -/

theorem runState_stages_iff (s : State) : s.engine.runState.stages = true ↔ staging s := by
  rw [staging]
  cases s.engine.runState <;> simp [RunState.stages]

theorem zoneNamed_iff (s : State) (i : Fin 32) : zoneNamed s.engine i = true ↔ planNames s i := by
  rw [zoneNamed, planNames, Bool.or_eq_true]
  refine or_congr (by simp) ?_
  cases s.engine.course <;> simp

/-- R27: a tile that a field ceases to name; a place without a record stays without one. -/
theorem dropReference_eq (s : State) (i : Fin 64) :
    dropReference s i = s.withStore { s.store with
      tiles := s.store.tiles.set i (s.store.tiles[i].map fun u => { u with
        references := u.references - 1 }) } := by
  have htile : s.tile? i = s.store.tiles[i] := rfl
  rw [dropReference, htile]
  cases ht : s.store.tiles[i] with
  | some u => rfl
  | none =>
    have hset : s.store.tiles.set i none = s.store.tiles := by
      rw [← ht]
      exact Vector.set_getElem_self i.isLt
    rw [Option.map_none, hset]
    rfl

theorem dropReference_referencesMoved (s : State) (i : Fin 64) :
    referencesMoved s (dropReference s i) (some i) none := by
  intro j
  rw [dropReference_eq]
  by_cases hj : j = i
  · subst hj
    simp
  · have hval : i.val ≠ j.val := fun e => hj (Fin.ext e.symm)
    simp [hval, Ne.symm hj]

section Requests

variable {s : State} {tag id : Byte} {i : Fin 32}

theorem retireZone_of_no_id (h : 32 ≤ id.toNat) : retireZone id s = (s, refuse .range) := by
  rw [retireZone, idOf_eq_none h]

theorem retireZone_of_no_record (hid : id.toNat = i.val) (hz : s.zones.places[i] = none) :
    retireZone id s = (s, refuse .noRecord) := by
  have hzone : s.zone? i = none := hz
  simp only [retireZone, idOf_eq_some hid, hzone]

/-- R56: the checks on a zone, in their order. -/
theorem retireZone_of_record {z : Zone} (hid : id.toNat = i.val)
    (hz : s.zones.places[i] = some z) :
    retireZone id s =
      if z.isRetiring then (s, refuse .noRecord)
      else if zoneNamed s.engine i then (s, refuse .inUse)
      else retireFrom s i z := by
  have hzone : s.zone? i = some z := hz
  simp only [retireZone, idOf_eq_some hid, hzone]

theorem retireFrom_pending (s : State) (i : Fin 32) (f : ZoneFields) :
    retireFrom s i (.pending f) = (dropReference (setZone s i none) f.tile, okWith [0]) := by
  rw [retireFrom]

/-- R57: between courses a LIVE zone without a pending part is removed. -/
theorem retireFrom_live_of_not_staging (h : ¬ staging s) (c : ZonePart) :
    retireFrom s i (.live c none) =
      (dropReference (setZone s i none) c.given.tile, okWith [0]) := by
  have hstages : s.engine.runState.stages = false :=
    Bool.eq_false_iff.mpr (mt (runState_stages_iff s).mp h)
  simp only [retireFrom, hstages]
  rfl

theorem retireFrom_live_of_staging (h : staging s) (c : ZonePart) (p : Option PendingFields) :
    retireFrom s i (.live c p) =
      (setZone s i (some (.retiring c (p.getD PendingFields.empty))), okWith [1]) := by
  simp only [retireFrom, (runState_stages_iff s).mpr h]

/-- R56, R194: what Retire Zone refuses leaves the part as it was. -/
theorem exec_retireZone_refused {code : ResultCode} (h : takesRequests s)
    (e : retireZone id (openFrame s) = (openFrame s, refuse code)) :
    exec (.retireZone tag id) s = .next (refusedWith s tag code) :=
  congrArg Host.Outcome.next (serve_refused h e)

/-- R57: a zone removed leaves its place empty and its tile with one reference less. -/
theorem exec_retireZone_removed {tile : Fin 64} (h : takesRequests s)
    (e : retireZone id (openFrame s) =
      (dropReference (setZone (openFrame s) i none) tile, okWith [0])) :
    ∃ tiles, exec (.retireZone tag id) s = .next (answeredWith s { s with
      store := { s.store with tiles := tiles }
      zones := { s.zones with places := s.zones.places.set i none } } tag [0]) ∧
      referencesMoved s { s with store := { s.store with tiles := tiles } } (some tile) none := by
  refine ⟨(dropReference s tile).store.tiles, ?_, dropReference_referencesMoved s tile⟩
  refine congrArg Host.Outcome.next (serve_answered h (e.trans ?_))
  rw [dropReference_eq, dropReference_eq]
  rfl

/-! ### Mark (R66) -/

theorem anyPending_iff (s : State) : anyPending s.zones = true ↔ someZonePending s := by
  rw [anyPending, someZonePending, List.any_eq_true]
  constructor
  · rintro ⟨place, hmem, hpending⟩
    obtain ⟨i, hi, rfl⟩ := Vector.mem_iff_getElem.mp (Vector.mem_toList_iff.mp hmem)
    cases hz : s.zones.places[i] with
    | none => simp [hz] at hpending
    | some z => exact ⟨⟨i, hi⟩, z, hz, by simpa [hz] using hpending⟩
  · rintro ⟨i, z, hz, hpending⟩
    exact ⟨some z, Vector.mem_toList_iff.mpr (hz ▸ Vector.getElem_mem i.isLt), hpending⟩

theorem mark_of_pendingMark (h : s.zones.pendingMark.isSome = true) :
    mark id s = (s, refuse .busy) := by
  rw [mark, if_pos h]

theorem mark_of_someZonePending (h : s.zones.pendingMark = none) (hp : someZonePending s) :
    mark id s = (s.withZones { s.zones with pendingMark := some id }, okWith [1]) := by
  rw [mark, h, if_neg (by simp), if_pos ((anyPending_iff s).mpr hp)]

theorem mark_of_not_someZonePending (h : s.zones.pendingMark = none) (hp : ¬ someZonePending s) :
    mark id s = (setMarkDone (s.withZones { s.zones with lastMark := id }), okWith [0]) := by
  rw [mark, h, if_neg (by simp), if_neg (mt (anyPending_iff s).mp hp)]

end Requests

end Sys2Proof.Machine

namespace Sys2Proof.Proofs

open Sys2Proof.Machine

/-- Settles O30: each place is written once, with `advancePart` of its current part; whether the
served set is full, the repeats are over and the row is the last one are the branches of that advance. -/
theorem rowAdvance : Obligations.RowAdvance := by
  intro s k
  have hmark := foldl_keeps (fun t : State => t.zones.pendingMark)
    (fun t i => (advanceZone_marks k t i).1) (List.finRange 32) s
  have hlast := foldl_keeps (fun t : State => t.zones.lastMark)
    (fun t i => (advanceZone_marks k t i).2) (List.finRange 32) s
  refine ⟨foldl_advanceZone_withZones k _ s s.zones, hmark, hlast, fun i =>
    ⟨fun hno => rowAdvance_place_of_not_named hno s, fun z c t hz hc ht hwidth hnamed => ?_⟩⟩
  intro done full
  have hfull : servedFull (addSlots c.served done) c.given.colours = true ↔ full :=
    servedFull_addSlots_iff c.served done c.given.colours
  have hplace : (Machine.rowAdvance s k).zones.places[i] =
      some (z.withCurrent (advancePart c t.width t.height done)) :=
    rowAdvance_place_of_named hz hc ht hnamed
  refine ⟨_, hplace, ?counter, fun howed => ?owed,
    fun hserved => ?served⟩
  case counter =>
    by_cases h : full
    · rw [advancePart_of_full (hfull.mpr h)]
    · rw [advancePart_of_owed (mt hfull.mp h)]
  case owed =>
    rw [advancePart_of_owed (mt hfull.mp howed)]
    exact ⟨rfl, rfl, rfl, addSlots_getLsbD c.served done⟩
  case served =>
    rw [advancePart_of_full (hfull.mpr hserved)]
    refine ⟨repeatStep_served c t.width t.height, fun hleft => ?repeats, fun hover => ?row⟩
    case repeats =>
      rw [repeatStep_of_repeats_left hleft]
      exact ⟨rfl, rfl, rfl⟩
    case row =>
      by_cases hrow : c.given.row + 1 = t.height
      · rw [repeatStep_of_last_row hover hrow]
        refine ⟨rfl, fun hne => absurd hrow hne, fun _ => ⟨rfl, ?_⟩⟩
        rw [floorMod_eq_emod _ (Int.natCast_nonneg t.width)]
        exact Int.toNat_of_nonneg (Int.emod_nonneg _ (by omega))
      · rw [repeatStep_of_rows_left hover hrow]
        exact ⟨rfl, fun _ => ⟨rfl, rfl⟩, fun h => absurd h hrow⟩

/-- Settles O44: each check of Retire Zone and of Mark is one branch of the block's answer; the
zone's state and `staging` choose between removal and a staged one. -/
theorem retireZoneAndMarkTaken : Obligations.RetireZoneAndMarkTaken := by
  intro tag id s htakes
  refine ⟨fun hno => exec_retireZone_refused htakes (retireZone_of_no_id hno), fun i hid =>
    ⟨fun hnone => exec_retireZone_refused htakes (retireZone_of_no_record hid hnone), fun z hz => ?_⟩,
    fun hbusy => ?busy, fun hmark => ⟨fun hwaits => ?waits, fun hnone => ?completes⟩⟩
  · have hretire := retireZone_of_record (s := openFrame s) hid hz
    have hnamed : zoneNamed (openFrame s).engine i = true ↔ planNames s i := zoneNamed_iff s i
    refine ⟨fun hgone => ?retiring, fun hstands => ⟨fun hplan => ?named, fun hplan => ?_⟩⟩
    case retiring =>
      exact exec_retireZone_refused htakes (hretire.trans (if_pos hgone))
    case named =>
      refine exec_retireZone_refused htakes (hretire.trans ?_)
      rw [if_neg (Bool.eq_false_iff.mp hstands), if_pos (hnamed.mpr hplan)]
    rw [if_neg (Bool.eq_false_iff.mp hstands), if_neg (mt hnamed.mp hplan)] at hretire
    refine ⟨fun tile hremoved => ?removed, fun c p hstaging hlive => ?staged⟩
    case removed =>
      refine exec_retireZone_removed htakes (hretire.trans ?_)
      obtain ⟨f, rfl, rfl⟩ | ⟨c, hbetween, rfl, rfl⟩ := hremoved
      · exact retireFrom_pending (openFrame s) i f
      · exact retireFrom_live_of_not_staging (s := openFrame s) hbetween c
    case staged =>
      subst hlive
      exact congrArg Host.Outcome.next (serve_answered htakes
        (hretire.trans (retireFrom_live_of_staging (s := openFrame s) hstaging c p)))
  case busy =>
    exact congrArg Host.Outcome.next (serve_refused htakes (mark_of_pendingMark hbusy))
  case waits =>
    exact congrArg Host.Outcome.next (serve_answered htakes (mark_of_someZonePending hmark hwaits))
  case completes =>
    exact congrArg Host.Outcome.next
      (serve_answered htakes (mark_of_not_someZonePending hmark hnone))

end Sys2Proof.Proofs

/-! # Needle-steps outside a course and the activation of a plan (chapter 4) -/

namespace Sys2Proof.Machine

/-! ### An occurrence that stops (R75, R162) -/

/-- R75: an occurrence of a kind that stops, taken in a run state that can be aborted, leads to HELD. -/
theorem occurrenceTaken_held {s t : State} {kind : FaultKind} {c : Context}
    (h : occurrenceTaken s t kind c) (hstops : s.faults.policy.stops kind = true)
    (habortable : s.engine.runState.abortable = true) : t.engine.runState = .held := by
  obtain ⟨hengine, -⟩ := (h.2 ⟨hstops, habortable⟩).1
  rw [hengine]

/-- R87, R90: a plan that fails is one PLAN_INVALID, its context carrying the plan's tag. -/
theorem failPlan_occurrenceTaken (s : State) (tag : Byte) (r : Rejection) :
    occurrenceTaken s (failPlan s tag r) .planInvalid
      { courseNumber := s.engine.courseNumber, position := s.tracker.position, system := r.system
        bed := none, needle := none, planTag := some tag, detail := r.reason.code } :=
  takeReports_occurrence s (planReport tag r) nofun nofun

/-- R75, R87, R90: PLAN_INVALID always stops. -/
theorem failPlan_held {s : State} (h : s.engine.runState.abortable = true) (tag : Byte)
    (r : Rejection) : (failPlan s tag r).engine.runState = .held :=
  occurrenceTaken_held (failPlan_occurrenceTaken s tag r) rfl h

/-! ### Needle-steps outside a course (R69, R89, R94) -/

section OutsideACourse

variable {s : State} {d : Direction}

theorem courseNeedleStep_of_setup_or_held
    (h : s.engine.runState = .setup ∨ s.engine.runState = .held) : courseNeedleStep d s = s := by
  rcases h with h | h <;> simp only [courseNeedleStep, h]

theorem courseNeedleStep_of_ready_unexpected (h : s.engine.runState = .ready)
    (hd : s.engine.expected ≠ some d) : courseNeedleStep d s = s := by
  simp only [courseNeedleStep, h, if_neg hd]

/-- R94: a pass begun with no plan. -/
theorem courseNeedleStep_of_ready_expected (h : s.engine.runState = .ready)
    (hd : s.engine.expected = some d) : courseNeedleStep d s = takeReports s [starvedReport] := by
  simp only [courseNeedleStep, h, if_pos hd]

theorem courseNeedleStep_of_prepared_against (h : s.engine.runState = .prepared)
    (hd : ∀ k, s.engine.course = some k → k.direction ≠ d) : courseNeedleStep d s = s := by
  cases hk : s.engine.course with
  | none => simp only [courseNeedleStep, h, hk]
  | some k => simp only [courseNeedleStep, h, hk, if_neg (hd k hk)]

/-- R89: the step in the direction of the prepared plan activates it. -/
theorem courseNeedleStep_of_prepared_along {k : Course} (h : s.engine.runState = .prepared)
    (hk : s.engine.course = some k) (hd : k.direction = d) : courseNeedleStep d s = activate s k := by
  simp only [courseNeedleStep, h, hk, if_pos hd]

/-- R94: PLAN_STARVED carries the carriage position, and in READY no plan tag. -/
theorem starvedReport_occurrenceTaken (h : s.engine.runState = .ready) :
    occurrenceTaken s (takeReports s [starvedReport]) .planStarved
      { courseNumber := s.engine.courseNumber, position := s.tracker.position, system := none
        bed := none, needle := none, planTag := none, detail := 0 } := by
  have hcontext := takeReports_occurrence s starvedReport nofun nofun
  have htag : s.engine.standingTag = none := by rw [Engine.standingTag, h]
  rw [contextOf, htag] at hcontext
  exact hcontext

end OutsideACourse

/-! ### Activation (R90) -/

section Activation

variable {s : State} {k : Course}

/-- R90: a system without an entry is ready. -/
theorem readyToStart_of_no_entry {sys : Fin 4} (h : (entriesOf sys k.runs).head? = none) :
    readyToStart s k sys := fun _ _ hr => nomatch h.symm.trans hr

/-- R90: the readiness of a system with its first entry at hand. -/
theorem readyToStart_iff_of_entry {sys : Fin 4} {r : EntryRun} {c : ZonePart}
    (hr : (entriesOf sys k.runs).head? = some r) (hc : s.part? r.entry.zone = some c) :
    readyToStart s k sys ↔
      before k.direction (pinPosition s sys k.direction) r.engage = true ∧
      before k.direction (pointPosition s .front sys k.direction)
        (c.given.nearEdge k.direction) = true ∧
      before k.direction (pointPosition s .back sys k.direction)
        (c.given.nearEdge k.direction) = true := by
  obtain ⟨_, direction, _, _, _⟩ := k
  constructor
  · intro h
    have hplaces := h r c hr hc
    cases direction <;> exact hplaces
  · intro h r' c' hr' hc'
    obtain rfl : r = r' := Option.some.inj (hr.symm.trans hr')
    obtain rfl : c = c' := Option.some.inj (hc.symm.trans hc')
    cases direction <;> exact h

/-- R90: LATE_START fails for a system exactly when it is not ready. -/
theorem lateFor_iff (hparts : ∀ r ∈ k.runs, (s.part? r.entry.zone).isSome = true) (sys : Fin 4) :
    lateFor s k sys = true ↔ ¬ readyToStart s k sys := by
  cases hhead : (entriesOf sys k.runs).head? with
  | none => simp [lateFor, hhead, readyToStart_of_no_entry hhead]
  | some r =>
    have hmem : r ∈ k.runs := List.mem_of_mem_filter (List.mem_of_mem_head? hhead)
    obtain ⟨c, hc⟩ := Option.isSome_iff_exists.mp (hparts r hmem)
    have hzone : zoneOf s r.entry = some c.given := by rw [zoneOf, hc, Option.map_some]
    rw [readyToStart_iff_of_entry hhead hc, not_and_or, not_and_or]
    simp [lateFor, hhead, hzone, or_assoc]

theorem activationCheck_of_unreferenced (h : s.tracker.referenced = false) :
    activationCheck s k = some ⟨.positionUnreferenced, none⟩ := by
  simp only [activationCheck, h, Bool.not_false, if_true]

/-- R90: the first system that is late is the one that the occurrence names. -/
theorem activationCheck_of_late {sys : Fin 4} (h : s.tracker.referenced = true)
    (hlate : lateFor s k sys = true) (hfirst : ∀ j, lateFor s k j = true → sys ≤ j) :
    activationCheck s k = some ⟨.lateStart, some sys⟩ := by
  have hfind : (List.finRange 4).find? (lateFor s k) = some sys :=
    find?_eq_some_of_least_turn (turn := Fin.val) (List.pairwise_lt_finRange 4)
      (List.mem_finRange sys) hlate hfirst
  simp only [activationCheck, h, hfind, Bool.not_true, Bool.false_eq_true, if_false]

/-- R90: with no system late the end position decides. -/
theorem activationCheck_of_no_late (h : s.tracker.referenced = true)
    (hready : ∀ sys, lateFor s k sys = false) :
    activationCheck s k =
      if before k.direction s.tracker.position k.endPosition then none
      else some ⟨.lateStart, none⟩ := by
  have hfind : (List.finRange 4).find? (lateFor s k) = none :=
    List.find?_eq_none.mpr fun sys _ => Bool.eq_false_iff.mp (hready sys)
  simp only [activationCheck, h, hfind, Bool.not_true, Bool.false_eq_true, if_false]

theorem activate_of_failed {r : Rejection} (h : activationCheck s k = some r) :
    activate s k = failPlan s k.tag r := by
  rw [activate, h]

theorem activate_of_passed (h : activationCheck s k = none) :
    activate s k = s.withEngine { s.engine with runState := .knitting, course := some k.opened } := by
  rw [activate, h]

/-- R90: an activating step that fails is a PLAN_INVALID that leads to HELD. -/
theorem activate_fails {r : Rejection} (hprepared : s.engine.runState = .prepared)
    (h : activationCheck s k = some r) :
    (activate s k).engine.runState = .held ∧ occurrenceTaken s (activate s k) .planInvalid
      { courseNumber := s.engine.courseNumber, position := s.tracker.position, system := r.system
        bed := none, needle := none, planTag := some k.tag, detail := r.reason.code } := by
  rw [activate_of_failed h]
  exact ⟨failPlan_held (by rw [hprepared]; rfl) k.tag r, failPlan_occurrenceTaken s k.tag r⟩

end Activation

end Sys2Proof.Machine

namespace Sys2Proof.Proofs

open Sys2Proof.Machine

/-- Settles O24: each run state outside KNITTING is one branch of `courseNeedleStep` at the tracker's step; only
READY in the expected direction reports. -/
theorem stepOutsideACourse : Obligations.StepOutsideACourse := by
  intro line home micros s hreset hstep
  rw [exec_encoderCount_step hreset hstep]
  refine ⟨fun hidle => ?idle, fun hready hexpected => ?starved⟩
  case idle =>
    refine congrArg Host.Outcome.next ?_
    rcases hidle with hsetup | hheld | ⟨hready, hother⟩ | ⟨hprepared, hagainst⟩
    · exact courseNeedleStep_of_setup_or_held (.inl hsetup)
    · exact courseNeedleStep_of_setup_or_held (.inr hheld)
    · exact courseNeedleStep_of_ready_unexpected hready hother
    · exact courseNeedleStep_of_prepared_against hprepared hagainst
  case starved =>
    let s1 := s.withTracker (trackerAtStep s line home micros)
    have htaken : occurrenceTaken s1 (takeReports s1 [starvedReport]) .planStarved _ :=
      starvedReport_occurrenceTaken hready
    have habortable : s1.engine.runState.abortable = true := congrArg RunState.abortable hready
    exact ⟨_, congrArg Host.Outcome.next (courseNeedleStep_of_ready_expected hready hexpected),
      occurrenceTaken_held htaken rfl habortable, htaken⟩

/-- Settles O26: the checks of activation in their order; `lateFor` is the negation of `readyToStart`, and the
search over the systems finds the first that is late. -/
theorem activatingStep : Obligations.ActivatingStep := by
  intro line home micros s k hreset hstep hprepared hcourse hdirection hparts s1 fails
  have hexec : exec (.encoderCount line home micros) s = .next (activate s1 k) := by
    rw [exec_encoderCount_step hreset hstep]
    exact congrArg Host.Outcome.next
      (courseNeedleStep_of_prepared_along hprepared hcourse hdirection)
  have hlate : ∀ sys, lateFor s1 k sys = true ↔ ¬ readyToStart s1 k sys := lateFor_iff hparts
  have hfails : ∀ r, activationCheck s1 k = some r → ∃ t, fails t r.system r.reason.code :=
    fun r hr => ⟨activate s1 k, hexec, activate_fails hprepared hr⟩
  refine ⟨fun hno => hfails _ (activationCheck_of_unreferenced hno), fun href =>
    ⟨fun sys hsys hearlier => ?late, fun hready => ?_⟩⟩
  case late =>
    refine hfails _ (activationCheck_of_late href ((hlate sys).mpr hsys) fun j hj => ?_)
    exact not_lt.mp fun hlt => (hlate j).mp hj (hearlier j hlt)
  have hend := activationCheck_of_no_late (s := s1) (k := k) href
    fun sys => Bool.eq_false_iff.mpr fun h => (hlate sys).mp h (hready sys)
  refine ⟨fun hshort => ?short, fun hahead => ?activated⟩
  case short =>
    rw [hshort, if_neg Bool.false_ne_true] at hend
    exact hfails _ hend
  case activated =>
    rw [hahead, if_pos rfl] at hend
    rw [hexec, activate_of_passed hend]
    rfl

end Sys2Proof.Proofs

/-! # Begin Run, End Run, Resume and Drop Plans (chapter 4) -/

namespace Sys2Proof.Machine

section RunRequests

variable {s : State}

/-! ### Begin Run, End Run and Resume (R70 to R72) -/

theorem beginRun_of_refused (h : s.engine.runState ≠ .setup ∨ s.faults.haltAsserted = true) :
    beginRun s = (s, refuse .state) := by
  by_cases hstate : s.engine.runState = .setup
  · rw [beginRun, if_neg (not_not.mpr hstate), if_pos (h.resolve_left (not_not.mpr hstate))]
  · rw [beginRun, if_pos hstate]

theorem beginRun_of_setup (hstate : s.engine.runState = .setup)
    (hhalt : s.faults.haltAsserted = false) :
    beginRun s = ((clearForces s).withEngine
      { s.engine with runState := .ready, expected := none }, okWith []) := by
  rw [beginRun, if_neg (not_not.mpr hstate), if_neg (Bool.eq_false_iff.mp hhalt)]

theorem endRun_of_refused (hready : s.engine.runState ≠ .ready)
    (hheld : s.engine.runState ≠ .held) : endRun s = (s, refuse .state) := by
  cases hstate : s.engine.runState with
  | ready => exact absurd hstate hready
  | held => exact absurd hstate hheld
  | setup | prepared | knitting => simp only [endRun, hstate]

theorem endRun_of_ready_or_held
    (h : s.engine.runState = .ready ∨ s.engine.runState = .held) :
    endRun s = ((s.withEngine { s.engine with runState := .setup }).withTracker
      { s.tracker with slow := false, overspeedReported := false }, okWith []) := by
  rcases h with h | h <;> simp only [endRun, h]

/-- R72: the stopped records that refuse Resume. -/
theorem stoppedRecord_iff (f : FaultBlock) :
    stoppedRecord f = true ↔
      ∃ (i : Fin 11) (r : FaultRecord), f.records[i] = some r ∧ r.stopped = true := by
  rw [stoppedRecord, List.any_eq_true]
  constructor
  · rintro ⟨record, hmem, hstopped⟩
    obtain ⟨i, hi, rfl⟩ := Vector.mem_iff_getElem.mp (Vector.mem_toList_iff.mp hmem)
    cases hr : f.records[i] with
    | none => simp [hr] at hstopped
    | some r => exact ⟨⟨i, hi⟩, r, hr, by simpa [hr] using hstopped⟩
  · rintro ⟨i, r, hr, hstopped⟩
    exact ⟨some r, Vector.mem_toList_iff.mpr (hr ▸ Vector.getElem_mem i.isLt), hstopped⟩

theorem resume_of_refused (h : s.engine.runState ≠ .held ∨ s.faults.haltAsserted = true ∨
    stoppedRecord s.faults = true) : resume s = (s, refuse .state) := by
  by_cases hstate : s.engine.runState = .held
  · by_cases hhalt : s.faults.haltAsserted = true
    · rw [resume, if_neg (not_not.mpr hstate), if_pos hhalt]
    · have hstopped := (h.resolve_left (not_not.mpr hstate)).resolve_left hhalt
      rw [resume, if_neg (not_not.mpr hstate), if_neg hhalt, if_pos hstopped]
  · rw [resume, if_pos hstate]

theorem resume_of_held (hstate : s.engine.runState = .held) (hhalt : s.faults.haltAsserted = false)
    (hstopped : stoppedRecord s.faults = false) :
    resume s = (s.withEngine { s.engine with runState := .ready, expected := none }, okWith []) := by
  rw [resume, if_neg (not_not.mpr hstate), if_neg (Bool.eq_false_iff.mp hhalt),
    if_neg (Bool.eq_false_iff.mp hstopped)]

/-! ### Drop Plans (R74) -/

theorem dropPlans_of_setup_or_held (h : s.engine.runState = .setup ∨ s.engine.runState = .held) :
    dropPlans s = (s, refuse .state) := by
  rcases h with h | h <;> simp only [dropPlans, h]

theorem dropPlans_of_ready (h : s.engine.runState = .ready) : dropPlans s = (s, okWith [0]) := by
  simp only [dropPlans, h]

theorem dropPlans_of_knitting (h : s.engine.runState = .knitting) :
    dropPlans s = (s.withEngine { s.engine with queue := [] },
      okWith [byteN s.engine.queue.length]) := by
  simp only [dropPlans, h]

/-- R74: the part without its prepared plan and its queue, before the pending parts are applied. -/
def withoutPlans (s : State) : State :=
  (giveUpChannels s).withEngine { s.engine with runState := .ready, course := none, queue := [] }

theorem dropPlans_of_prepared (h : s.engine.runState = .prepared) :
    dropPlans s = (applyPendingParts (withoutPlans s),
      okWith [byteN (s.engine.queue.length + 1)]) := by
  simp only [dropPlans, h, withoutPlans]

/-- R77: STOP_REQ is released in READY. -/
theorem stopReq_of_ready (h : s.engine.runState = .ready) : stopReq s = false := by
  rw [stopReq, h]
  exact Bool.and_false _

theorem withoutPlans_allGaveUp (s : State) : allGaveUp s (withoutPlans s) := by
  intro sys
  simp only [withoutPlans, giveUpChannels, State.withEngine_front, State.withEngine_back,
    State.withBack_front, State.withBack_back, State.withFront_front, Fin.getElem_fin,
    Vector.getElem_map]
  exact ⟨giveUp_gaveUp _, giveUp_gaveUp _⟩

theorem faultBlock_eq_of_fields {f g : FaultBlock} (hrecords : f.records = g.records)
    (hpolicy : f.policy = g.policy) (hcourse : f.courseDone = g.courseDone)
    (hload : f.loadEmpty = g.loadEmpty) (hhalt : f.haltAsserted = g.haltAsserted) :
    f = { g with markDone := f.markDone } := by
  cases f
  cases g
  simp_all

/-- R62, R63, R67: what an application leaves, with the state it comes to kept closed: zones, mark, reference
counts and MARK_DONE may move, the link and everything else stand. -/
theorem applyPendingParts_leaves (s : State) : ∃ t, applyPendingParts s = t ∧
    partsApplied s t ∧ storeKept s t ∧ t.engine = s.engine ∧ t.front = s.front ∧ t.back = s.back ∧
    t.pins = s.pins ∧ t.carriers = s.carriers ∧ t.tracker = s.tracker ∧ t.geometry = s.geometry ∧
    t.faults = { s.faults with markDone := t.faults.markDone } ∧ t.inReset = s.inReset ∧
    t.freeCount = s.freeCount ∧ t.pending = s.pending ∧ t.link = s.link :=
  ⟨_, rfl, applyPendingParts_partsApplied s, applyPendingParts_storeKept s,
    applyPendingParts_engine s, applyPendingParts_front s, applyPendingParts_back s,
    applyPendingParts_pins s, applyPendingParts_carriers s, applyPendingParts_tracker s,
    applyPendingParts_geometry s,
    faultBlock_eq_of_fields (applyPendingParts_faults_records s) (applyPendingParts_faults_policy s)
      (applyPendingParts_faults_courseDone s) (applyPendingParts_faults_loadEmpty s)
      (applyPendingParts_faults_haltAsserted s),
    applyPendingParts_inReset s, applyPendingParts_freeCount s, applyPendingParts_pending s,
    applyPendingParts_link s⟩

end RunRequests

end Sys2Proof.Machine

namespace Sys2Proof.Proofs

open Sys2Proof.Machine

/-- Settles O18: the run state, the halt level and the stopped records choose the branch of each block's answer;
Drop Plans in PREPARED is an application of the pending parts on the part without its plans. -/
theorem runRequestsTaken : Obligations.RunRequestsTaken := by
  refine ⟨fun tag s htakes => ⟨fun hstate hhalt => ?begun, fun hno => ?notBegun, fun hstate => ?ended,
      fun hready hheld => ?notEnded, fun hstate hhalt hrecords => ?resumed, fun hno => ?notResumed⟩,
    fun tag s htakes => ⟨fun hstate => ?notDropped, fun hstate => ?nothingDropped,
      fun hstate => ?queueDropped, fun hstate => ?allDropped⟩⟩
  case begun =>
    exact congrArg Host.Outcome.next
      (serve_answered htakes (beginRun_of_setup (s := openFrame s) hstate hhalt))
  case notBegun =>
    exact congrArg Host.Outcome.next
      (serve_refused htakes (beginRun_of_refused (s := openFrame s) hno))
  case ended =>
    exact congrArg Host.Outcome.next
      (serve_answered htakes (endRun_of_ready_or_held (s := openFrame s) hstate))
  case notEnded =>
    exact congrArg Host.Outcome.next
      (serve_refused htakes (endRun_of_refused (s := openFrame s) hready hheld))
  case resumed =>
    have hstopped : stoppedRecord s.faults = false := Bool.eq_false_iff.mpr fun h => by
      obtain ⟨i, r, hr, hstopped⟩ := (stoppedRecord_iff s.faults).mp h
      exact Bool.false_ne_true ((hrecords i r hr).symm.trans hstopped)
    exact congrArg Host.Outcome.next
      (serve_answered htakes (resume_of_held (s := openFrame s) hstate hhalt hstopped))
  case notResumed =>
    rw [← stoppedRecord_iff] at hno
    exact congrArg Host.Outcome.next
      (serve_refused htakes (resume_of_refused (s := openFrame s) hno))
  case notDropped =>
    exact congrArg Host.Outcome.next
      (serve_refused htakes (dropPlans_of_setup_or_held (s := openFrame s) hstate))
  case nothingDropped =>
    exact congrArg Host.Outcome.next
      (serve_answered htakes (dropPlans_of_ready (s := openFrame s) hstate))
  case queueDropped =>
    exact congrArg Host.Outcome.next
      (serve_answered htakes (dropPlans_of_knitting (s := openFrame s) hstate))
  case allDropped =>
    obtain ⟨t, ht, hparts, hstore, hengine, hfront, hback, hpins, hcarriers, htracker, hgeometry,
      hfaults, hreset, hfree, hpending, hlink⟩ := applyPendingParts_leaves (withoutPlans (openFrame s))
    have hframe : t.link = (openFrame s).link := hlink
    have hdropped := dropPlans_of_prepared (s := openFrame s) hstate
    rw [ht] at hdropped
    have hserved : serve tag dropPlans s =
        answeredWith s t tag [byteN (s.engine.queue.length + 1)] :=
      serve_answered htakes (hdropped.trans (by rw [← hframe]; rfl))
    have hrunState : t.engine.runState = .ready := by rw [hengine]; rfl
    have hchannels : allGaveUp s t := fun sys => by
      rw [hfront, hback]
      exact withoutPlans_allGaveUp s sys
    refine ⟨_, congrArg Host.Outcome.next hserved, hengine, hchannels, hparts, hstore, hpins,
      hcarriers, htracker, hgeometry, hfaults, hreset, hfree, hpending,
      stopReq_of_ready (s := answeredWith s t tag _) hrunState, rfl⟩

end Sys2Proof.Proofs

/-! # Queue Course (chapter 4): the payload's plan, the checks and what an accepted plan does -/

namespace Sys2Proof.Machine

/-! ### The plan of a payload (R80, R199) -/

/-- A traversal in `Option` succeeds exactly where every member does, member by member. -/
theorem mapM_eq_some_iff_forall₂ {α β : Type} {f : α → Option β} {l : List α} {m : List β} :
    l.mapM f = some m ↔ List.Forall₂ (fun a b => f a = some b) l m := by
  induction l generalizing m with
  | nil => cases m <;> simp
  | cons a l ih => cases m <;> simp [List.mapM_cons, Option.bind_eq_some_iff, ih]

/-- A traversal in `Option` succeeds where every member does. -/
theorem exists_mapM_eq_some_iff {α β : Type} {f : α → Option β} {l : List α} :
    (∃ m, l.mapM f = some m) ↔ ∀ a ∈ l, ∃ b, f a = some b := by
  induction l with
  | nil => simp
  | cons a l ih => simp [List.mapM_cons, Option.bind_eq_some_iff, ← ih]

theorem idOf_eq_some_iff {n : Nat} {b : Byte} {i : Fin n} : idOf n b = some i ↔ b.toNat = i.val := by
  refine ⟨fun h => ?_, idOf_eq_some⟩
  rw [idOf] at h
  split at h
  · rw [← Option.some.inj h]
  · cases h

/-- R199: the fields of an entry that its three bytes carry. -/
def entryMatches (p : EntryPayload) (e : Entry) : Prop :=
  e.system.val = p.system.toNat ∧ e.zone.val = p.zone.toNat ∧
  e.carrier.val = p.packed.toNat % 16 ∧ e.slot.val = p.packed.toNat / 16 % 8 ∧
  e.back = decide (128 ≤ p.packed.toNat)

theorem directionOf_eq_some_iff {b : Byte} {d : Direction} :
    directionOf b = some d ↔ b.toNat ≤ 1 ∧ d = if b.toNat = 0 then .right else .left := by
  have hzero : b = 0 ↔ b.toNat = 0 := BitVec.toNat_inj.symm
  have hone : b = 1 ↔ b.toNat = 1 := BitVec.toNat_inj.symm
  simp only [directionOf, hzero, hone]
  split
  case isTrue h => simp [h, eq_comm]
  case isFalse h =>
    split
    case isTrue h1 => simp [h1, eq_comm]
    case isFalse h1 =>
      have hbig : ¬ b.toNat ≤ 1 := by omega
      simp [hbig]

theorem within_eq_true_iff {lo hi x : Int} : within lo hi x = true ↔ lo ≤ x ∧ x ≤ hi := by
  rw [within, Bool.and_eq_true, decide_eq_true_iff, decide_eq_true_iff]

section Payload

variable {g : Geometry}

/-- R199: bits 0..3 carry the carrier, bits 4..6 the slot and bit 7 the back flag. -/
theorem packed_fields (b : Byte) :
    (b.extractLsb' 0 4).toFin.val = b.toNat % 16 ∧
    (b.extractLsb' 4 3).toFin.val = b.toNat / 16 % 8 ∧
    b.getLsbD 7 = decide (128 ≤ b.toNat) := by
  refine ⟨BitVec.extractLsb'_toNat 0 4 b, ?_, ?_⟩
  · rw [BitVec.val_toFin, BitVec.extractLsb'_toNat, Nat.shiftRight_eq_div_pow]
  · rw [← BitVec.msb_eq_decide b, BitVec.msb_eq_getLsbD_last]

/-- R80, R199: an entry in range carries the payload's fields. -/
theorem entryOf_eq_some {p : EntryPayload} {e : Entry} (h : entryOf g p = some e) :
    entryMatches p e ∧ e.system.val < g.systems := by
  rw [entryOf] at h
  split at h
  case h_2 => cases h
  case h_1 sys zone hsys hzone =>
    split at h
    case isFalse => cases h
    case isTrue hlt =>
      obtain rfl := Option.some.inj h
      exact ⟨⟨(idOf_eq_some_iff.mp hsys).symm, (idOf_eq_some_iff.mp hzone).symm,
        packed_fields p.packed⟩, hlt⟩

theorem exists_entryOf_iff (hg : g.systems ≤ 4) (p : EntryPayload) :
    (∃ e, entryOf g p = some e) ↔ p.system.toNat < g.systems ∧ p.zone.toNat < 32 := by
  constructor
  · rintro ⟨e, he⟩
    obtain ⟨⟨hsys, hzone, -⟩, hlt⟩ := entryOf_eq_some he
    exact ⟨hsys ▸ hlt, hzone ▸ e.zone.isLt⟩
  · rintro ⟨hsys, hzone⟩
    have hsystem : idOf 4 p.system = some ⟨p.system.toNat, hsys.trans_le hg⟩ := idOf_eq_some rfl
    have hplace : idOf 32 p.zone = some ⟨p.zone.toNat, hzone⟩ := idOf_eq_some rfl
    simp [entryOf, hsystem, hplace, hsys]

/-- R80: the RANGE check of Queue Course and the plan it yields. -/
theorem planOf_eq_some_iff {p : PlanPayload} {q : Plan} :
    planOf g p = some q ↔
      directionOf p.direction = some q.direction ∧ p.entries.mapM (entryOf g) = some q.entries ∧
      (-8 ≤ p.racking.toInt ∧ p.racking.toInt ≤ 8) ∧
      (-1024 ≤ p.endPosition.toInt ∧ p.endPosition.toInt ≤ g.bedWidth + 1023) ∧
      p.entries.length ≤ 16 ∧
      q.tag = p.planTag ∧ q.racking = p.racking.toInt ∧ q.endPosition = p.endPosition.toInt := by
  obtain ⟨tag, direction, racking, endPosition, entries⟩ := q
  rw [planOf]
  cases hd : directionOf p.direction with
  | none => simp
  | some d =>
    cases hes : p.entries.mapM (entryOf g) with
    | none => simp
    | some es =>
      simp only [Option.ite_none_right_eq_some, Bool.and_eq_true, within_eq_true_iff,
        decide_eq_true_iff, Option.some.injEq, Plan.mk.injEq]
      constructor
      · rintro ⟨⟨⟨hracking, hend⟩, hlength⟩, rfl, rfl, rfl, rfl, rfl⟩
        exact ⟨rfl, rfl, hracking, hend, hlength, rfl, rfl, rfl⟩
      · rintro ⟨rfl, rfl, hracking, hend, hlength, rfl, rfl, rfl⟩
        exact ⟨⟨⟨hracking, hend⟩, hlength⟩, rfl, rfl, rfl, rfl, rfl⟩

/-- R199: a plan in range carries the payload's fields. -/
theorem planOf_matches {p : PlanPayload} {q : Plan} (h : planOf g p = some q) : planMatches p q := by
  obtain ⟨hdirection, hentries, -, -, -, htag, hracking, hend⟩ := planOf_eq_some_iff.mp h
  have hmembers := mapM_eq_some_iff_forall₂.mp hentries
  refine ⟨htag, (directionOf_eq_some_iff.mp hdirection).2, hracking, hend,
    hmembers.length_eq.symm, fun i e f he hf => ?_⟩
  obtain ⟨hi, rfl⟩ := List.getElem?_eq_some_iff.mp he
  obtain ⟨hj, rfl⟩ := List.getElem?_eq_some_iff.mp hf
  exact (entryOf_eq_some (hmembers.get hi hj)).1

theorem exists_planOf_iff (hg : g.systems ≤ 4) (p : PlanPayload) :
    (∃ q, planOf g p = some q) ↔ planInRange g p := by
  have hmembers : (∃ es, p.entries.mapM (entryOf g) = some es) ↔
      ∀ e ∈ p.entries, e.system.toNat < g.systems ∧ e.zone.toNat < 32 := by
    simp only [exists_mapM_eq_some_iff, exists_entryOf_iff hg]
  constructor
  · rintro ⟨q, hq⟩
    obtain ⟨hdirection, hentries, ⟨hlo, hhi⟩, ⟨hleft, hright⟩, hlength, -⟩ :=
      planOf_eq_some_iff.mp hq
    exact ⟨(directionOf_eq_some_iff.mp hdirection).1, hlo, hhi, hleft, hright, hlength,
      hmembers.mp ⟨_, hentries⟩⟩
  · rintro ⟨hdirection, hlo, hhi, hleft, hright, hlength, hentries⟩
    obtain ⟨es, hes⟩ := hmembers.mpr hentries
    exact ⟨⟨p.planTag, _, _, _, es⟩, planOf_eq_some_iff.mpr
      ⟨directionOf_eq_some_iff.mpr ⟨hdirection, rfl⟩, hes, ⟨hlo, hhi⟩, ⟨hleft, hright⟩, hlength,
        rfl, rfl, rfl⟩⟩

end Payload

/-! ### The checks after RANGE (R80, R81) -/

section Checks

variable {s : State} {q : Plan}

/-- R81: the last queued plan speaks first, then the plan that stands, then the expected direction. -/
theorem directionAgrees_iff (e : Engine) (d : Direction) :
    directionAgrees e d = true ↔ directionFits e d := by
  rw [directionAgrees, directionFits, ← List.getLast?_eq_none_iff]
  cases hlast : e.queue.getLast? with
  | some p => simp
  | none =>
    cases hcourse : e.course with
    | some k => simp
    | none => cases e.expected <;> simp

theorem recordsExist_iff (s : State) (e : Entry) :
    recordsExist s e = true ↔
      (∃ z, s.zones.places[e.zone] = some z ∧ z.isRetiring = false) ∧
      s.carriers[e.carrier].state ≠ .absent := by
  rw [recordsExist, Bool.and_eq_true, decide_eq_true_iff]
  refine and_congr_left' ?_
  rw [State.zone?]
  cases s.zones.places[e.zone] <;> simp

theorem recordsFit_iff (s : State) (q : Plan) :
    q.entries.all (recordsExist s) = true ↔ recordsFit s q := by
  simp only [List.all_eq_true, recordsExist_iff, recordsFit]

theorem entriesAgree_iff (e f : Entry) :
    entriesAgree e f = true ↔
      e.carrier ≠ f.carrier ∧ e.carrier.val / 2 ≠ f.carrier.val / 2 ∧
      ¬ (e.system = f.system ∧ e.zone = f.zone) := by
  have hrail : e.carrier.val / 2 ≠ f.carrier.val / 2 → e.carrier ≠ f.carrier :=
    fun h hsame => h (by rw [hsame])
  simp only [entriesAgree, Bool.and_eq_true, decide_eq_true_iff, Bool.not_eq_true',
    Bool.and_eq_false_iff, decide_eq_false_iff_not]
  tauto

theorem ordersFit_iff (q : Plan) : entriesOrdered q = true ↔ ordersFit q := by
  rw [entriesOrdered, ordersFit, Bool.and_eq_true, decide_eq_true_iff]
  rw [List.all_eq_true]
  refine and_congr ?_ ⟨fun h sys => of_decide_eq_true (h sys (List.mem_finRange sys)),
    fun h sys _ => decide_eq_true (h sys)⟩
  simp only [entriesAgree_iff, List.pairwise_iff_getElem, List.getElem?_eq_some_iff]
  constructor
  · rintro h i j e f hij ⟨hi, rfl⟩ ⟨hj, rfl⟩
    exact h i j hi hj hij
  · exact fun h i j hi hj hij => h i j _ _ hij ⟨hi, rfl⟩ ⟨hj, rfl⟩

theorem queueCheck_of_direction (h : ¬ directionFits s.engine q.direction) :
    queueCheck s q = some .direction := by
  rw [← directionAgrees_iff] at h
  simp only [queueCheck, Bool.eq_false_iff.mpr h, Bool.not_false, if_true]

/-- R80: with the direction right, the records come next, and the order last. -/
theorem queueCheck_of_directionFits (h : directionFits s.engine q.direction) :
    queueCheck s q =
      if !q.entries.all (recordsExist s) then some .noRecord
      else if !entriesOrdered q then some .order
      else none := by
  simp only [queueCheck, (directionAgrees_iff _ _).mpr h, Bool.not_true, Bool.false_eq_true, if_false]

theorem queueCheck_of_records (h : directionFits s.engine q.direction) (hr : ¬ recordsFit s q) :
    queueCheck s q = some .noRecord := by
  rw [← recordsFit_iff] at hr
  rw [queueCheck_of_directionFits h, if_pos (by simpa using hr)]

theorem queueCheck_of_orders (h : directionFits s.engine q.direction) (hr : recordsFit s q)
    (ho : ¬ ordersFit q) : queueCheck s q = some .order := by
  rw [← ordersFit_iff] at ho
  rw [queueCheck_of_directionFits h, (recordsFit_iff s q).mpr hr, if_neg (by simp),
    if_pos (by simpa using ho)]

theorem queueCheck_of_passed (h : directionFits s.engine q.direction) (hr : recordsFit s q)
    (ho : ordersFit q) : queueCheck s q = none := by
  rw [queueCheck_of_directionFits h, (recordsFit_iff s q).mpr hr, (ordersFit_iff q).mpr ho]
  rfl

end Checks

/-! ### Queue Course (R80, R82) -/

section QueueCourse

variable {s : State} {p : PlanPayload} {q : Plan} {code : ResultCode}

theorem takesPlans_iff (r : RunState) : r.takesPlans = true ↔ r ≠ .setup ∧ r ≠ .held := by
  cases r <;> simp [RunState.takesPlans]

theorem queueCourse_of_not_taking (h : s.engine.runState.takesPlans = false) :
    queueCourse p s = (s, refuse .state) := by
  simp only [queueCourse, h, Bool.not_false, if_true]

theorem queueCourse_of_full (h : s.engine.runState.takesPlans = true)
    (hfull : 4 ≤ s.engine.queue.length) : queueCourse p s = (s, refuse .full) := by
  simp only [queueCourse, h, hfull, Bool.not_true, Bool.false_eq_true, if_false, if_true]

theorem queueCourse_of_out_of_range (h : s.engine.runState.takesPlans = true)
    (hroom : s.engine.queue.length < 4) (hp : planOf s.geometry p = none) :
    queueCourse p s = (s, refuse .range) := by
  simp only [queueCourse, h, hroom.not_ge, hp, Bool.not_true, Bool.false_eq_true, if_false]

theorem queueCourse_of_refused (h : s.engine.runState.takesPlans = true)
    (hroom : s.engine.queue.length < 4) (hp : planOf s.geometry p = some q)
    (hcheck : queueCheck s q = some code) : queueCourse p s = (s, refuse code) := by
  simp only [queueCourse, h, hroom.not_ge, hp, hcheck, Bool.not_true, Bool.false_eq_true, if_false]

theorem queueCourse_of_accepted (h : s.engine.runState.takesPlans = true)
    (hroom : s.engine.queue.length < 4) (hp : planOf s.geometry p = some q)
    (hcheck : queueCheck s q = none) : queueCourse p s = acceptPlan s q := by
  simp only [queueCourse, h, hroom.not_ge, hp, hcheck, Bool.not_true, Bool.false_eq_true, if_false]

/-- R80, R194: what Queue Course refuses leaves the part as it was. -/
theorem exec_queueCourse_refused {tag : Byte} (h : takesRequests s)
    (e : queueCourse p (openFrame s) = (openFrame s, refuse code)) :
    exec (.queueCourse tag p) s = .next (refusedWith s tag code) :=
  congrArg Host.Outcome.next (serve_refused h e)

theorem acceptPlan_of_ready (h : s.engine.runState = .ready) : acceptPlan s q = prepareNow s q := by
  rw [acceptPlan, if_pos h]

/-- R82: PREPARED and KNITTING put the plan at the tail of the queue. -/
theorem acceptPlan_of_not_ready (h : s.engine.runState ≠ .ready) :
    acceptPlan s q = (s.withEngine { s.engine with queue := s.engine.queue ++ [q] },
      okWith [0, byteN (s.engine.queue.length + 1)]) := by
  rw [acceptPlan, if_neg h]

/-- R88: the spans that the channels take are none of the engine's. -/
theorem takeSpans_engine (s : State) (k : Course) (sys : Fin 4) :
    (takeSpans s k sys).engine = s.engine := by
  rw [takeSpans]
  split
  · rfl
  · rw [setChannel_engine, setChannel_engine]

/-- R88: the plan taken is the prepared one. -/
theorem takePlan_engine (s : State) (q : Plan) :
    (takePlan s q).engine =
      { s.engine with runState := .prepared, course := some (courseOf s q) } :=
  foldl_keeps State.engine (fun t sys => takeSpans_engine t (courseOf s q) sys) _ _

/-- R82: a plan taken in READY is prepared, or leads to HELD. -/
theorem prepareNow_runState (h : s.engine.runState = .ready) (q : Plan) :
    (prepareNow s q).1.engine.runState = .prepared ∨
      (prepareNow s q).1.engine.runState = .held := by
  rw [prepareNow]
  split
  case h_1 r _ => exact .inr (failPlan_held (by rw [h]; rfl) q.tag r)
  case h_2 => exact .inl (by rw [pump_engine_runState, takePlan_engine])

end QueueCourse

end Sys2Proof.Machine

namespace Sys2Proof.Proofs

open Sys2Proof.Machine

/-- Settles O20: each check is one branch of `queueCourse`, in the order of R80; the payload has a plan exactly
when it is in range, and that plan is the one the later checks read. -/
theorem queueCourseChecks : Obligations.QueueCourseChecks := by
  intro tag p s htakes hsystems
  refine ⟨fun hstate => ?state, fun hsetup hheld => ?_⟩
  case state =>
    refine exec_queueCourse_refused htakes (queueCourse_of_not_taking (Bool.eq_false_iff.mpr ?_))
    intro htaking
    obtain ⟨hsetup, hheld⟩ := (takesPlans_iff s.engine.runState).mp htaking
    exact hstate.elim hsetup hheld
  have htaking : (openFrame s).engine.runState.takesPlans = true :=
    (takesPlans_iff s.engine.runState).mpr ⟨hsetup, hheld⟩
  refine ⟨fun hfull => exec_queueCourse_refused htakes (queueCourse_of_full htaking hfull),
    fun hroom => ⟨fun hout => ?range, fun hin => ?_⟩⟩
  case range =>
    refine exec_queueCourse_refused htakes (queueCourse_of_out_of_range htaking hroom ?_)
    exact Option.eq_none_iff_forall_ne_some.mpr
      fun q hq => hout ((exists_planOf_iff hsystems p).mp ⟨q, hq⟩)
  obtain ⟨q, hq⟩ := (exists_planOf_iff hsystems p).mpr hin
  have hrefused : ∀ code, queueCheck (openFrame s) q = some code →
      exec (.queueCourse tag p) s = .next (refusedWith s tag code) := fun code hcheck =>
    exec_queueCourse_refused htakes (queueCourse_of_refused htaking hroom hq hcheck)
  refine ⟨q, planOf_matches hq, fun hd => hrefused _ (queueCheck_of_direction hd), fun hd =>
    ⟨fun hr => hrefused _ (queueCheck_of_records hd hr), fun hr =>
      ⟨fun ho => hrefused _ (queueCheck_of_orders hd hr ho), fun ho => ?_⟩⟩⟩
  have haccepted : queueCourse p (openFrame s) = acceptPlan (openFrame s) q :=
    queueCourse_of_accepted htaking hroom hq (queueCheck_of_passed hd hr ho)
  refine ⟨fun hstate => ?queued, fun hready => ?prepared⟩
  case queued =>
    have hnot : s.engine.runState ≠ .ready := by
      rcases hstate with h | h <;> rw [h] <;> exact nofun
    exact congrArg Host.Outcome.next (serve_answered htakes
      (haccepted.trans (acceptPlan_of_not_ready (s := openFrame s) hnot)))
  case prepared =>
    refine ⟨_, congrArg Host.Outcome.next (serve_eq htakes tag (queueCourse p)), ?_⟩
    rw [haccepted, acceptPlan_of_ready (s := openFrame s) hready]
    exact prepareNow_runState (s := openFrame s) hready q

end Sys2Proof.Proofs

/-! # Faults of the encoder (R99, R101) -/

namespace Sys2Proof.Machine

/-- R99: an illegal transition out of reset. -/
theorem exec_illegalTransition {s : State} (h : s.inReset = false) (home : Bool) :
    exec (.illegalTransition home) s = .next (illegalTransition home s) := by
  simp only [exec, execIllegalTransition, whenOn, h, Bool.false_eq_true, if_false]

/-- R99, R101: the ENCODER taken where the reference is withdrawn carries the position as it stood. With the
pending correction discarded, an abort has none to apply and makes no ENCODER of its own (R107). -/
theorem encoderReport_occurrenceTaken (s : State) (t : Tracker) (detail : Nat) :
    occurrenceTaken (s.withTracker (withdraw t))
      (takeReports (s.withTracker (withdraw t)) [Report.plain .encoder detail]) .encoder
      { courseNumber := s.engine.courseNumber, position := t.position, system := none
        bed := none, needle := none, planTag := s.engine.standingTag, detail := detail } :=
  have hdiscarded : (s.withTracker (withdraw t)).tracker.correction = none := rfl
  takeReports_occurrence _ (Report.plain .encoder detail) nofun fun _ => hdiscarded

end Sys2Proof.Machine

namespace Sys2Proof.Proofs

open Sys2Proof.Machine

/-- Settles O25: both faults are one ENCODER report on the part with the reference withdrawn; the illegal
transition changes the tracker's lines alone, the step at the limit is refused after its count was taken. -/
theorem encoderFaults : Obligations.EncoderFaults := by
  intro s hreset
  refine ⟨fun home => ?illegal, fun line home micros hpitch hlimit => ?limit⟩
  case illegal =>
    exact ⟨_, exec_illegalTransition hreset home, encoderReport_occurrenceTaken s
      { s.tracker with encA := !s.tracker.encA, encB := !s.tracker.encB, home := home } 1⟩
  case limit =>
    exact ⟨_, exec_encoderCount_limit hreset hpitch hlimit home micros,
      encoderReport_occurrenceTaken s (trackerAtCount s line home micros) 2⟩

end Sys2Proof.Proofs

/-! # The pins at a needle-step (chapter 7) -/

namespace Sys2Proof.Machine

/-! ### The records that chapter 7 writes -/

section Writes

variable {s : State} {k : Course}

theorem setPinState_eq_withPin (s : State) (sys : Fin 4) (p : PinState) :
    setPinState s sys p = withPin s sys p := rfl

theorem setCarrierState_eq_withCarrier (s : State) (c : Fin 16) (x : CarrierState) :
    setCarrierState s c x = withCarrier s c x := rfl

theorem setStatus_eq_withStatus (h : s.engine.course = some k) (i : Nat) (st : EntryStatus) :
    setStatus s i st = withStatus s k i st := by
  simp only [setStatus, setRuns, h, Option.map_some]
  rfl

/-- R147, R153: a missed catch in the active plan. -/
theorem missCatch_eq (h : s.engine.course = some k) (sys : Fin 4) (c : Fin 16) (i : Nat) :
    missCatch s sys c i = (withStatus (withPin s sys .up) k i .unfed,
      [⟨.carrierMissed, none, some sys, none, none, some k.tag, c.val⟩]) := by
  have hpin : (withPin s sys .up).engine.course = some k := h
  rw [missCatch, setPinState_eq_withPin, setStatus_eq_withStatus hpin, carrierReport, h,
    Option.map_some]

end Writes

/-! ### What a needle-step asks of a pin (R143, R145, R147, R148) -/

section PinEvents

variable {s : State} {k : Course} {sys : Fin 4} {i : Nat} {r : EntryRun}

/-- R143: the search finds the first OPEN entry of the system. -/
theorem nextEntry_eq_some_iff : nextEntry k sys = some (i, r) ↔ nextOpen k sys i r := by
  simp only [nextEntry, nextOpen, Option.map_eq_some_iff, List.find?_eq_some_iff_getElem,
    List.getElem_zipIdx, Nat.zero_add, List.length_zipIdx, Bool.not_eq_true', Bool.and_eq_true,
    Bool.and_eq_false_imp, decide_eq_true_iff, decide_eq_false_iff_not]
  constructor
  · rintro ⟨_, ⟨⟨hsys, hopen⟩, j, hj, rfl, hfirst⟩, hpair⟩
    obtain ⟨rfl, rfl⟩ := Prod.mk.inj hpair
    refine ⟨List.getElem?_eq_getElem hj, hsys, hopen, fun n q hn hq => ?_⟩
    obtain ⟨hlt, rfl⟩ := List.getElem?_eq_some_iff.mp hq
    exact hfirst n hn
  · rintro ⟨hi, hsys, hopen, hfirst⟩
    obtain ⟨hlt, rfl⟩ := List.getElem?_eq_some_iff.mp hi
    exact ⟨(k.runs[i], i), ⟨⟨hsys, hopen⟩, i, hlt, rfl, fun j hj =>
      hfirst j _ hj (List.getElem?_eq_getElem (hj.trans hlt))⟩, rfl⟩

theorem nextEntry_eq_none (h : ∀ i r, ¬ nextOpen k sys i r) : nextEntry k sys = none :=
  Option.eq_none_iff_forall_ne_some.mpr fun ⟨i, r⟩ hfound => h i r (nextEntry_eq_some_iff.mp hfound)

theorem atRelease_iff (hr : k.runs[i]? = some r) :
    atRelease s k sys i = true ↔ pinAt s k sys r.release := by
  rw [atRelease, hr]
  exact decide_eq_true_iff

theorem upEvent_of_no_open (h : ∀ i r, ¬ nextOpen k sys i r) : upEvent s k sys = .none := by
  rw [upEvent, nextEntry_eq_none h]

/-- R145, R147: the pin's place and the entry's interval decide what an UP pin does for its next entry. -/
theorem upEvent_of_nextOpen (h : nextOpen k sys i r) :
    upEvent s k sys =
      if pinPosition s sys k.direction = r.engage then
        if r.engage = r.release then .miss r.entry.carrier i else .engage r.entry.carrier i
      else .none := by
  rw [upEvent, nextEntry_eq_some_iff.mpr h]

theorem upEvent_of_not_at (h : nextOpen k sys i r) (hat : ¬ pinAt s k sys r.engage) :
    upEvent s k sys = .none :=
  (upEvent_of_nextOpen h).trans (if_neg hat)

theorem upEvent_of_interval (h : nextOpen k sys i r) (hat : pinAt s k sys r.engage)
    (hne : r.engage ≠ r.release) : upEvent s k sys = .engage r.entry.carrier i :=
  (upEvent_of_nextOpen h).trans ((if_pos hat).trans (if_neg hne))

theorem upEvent_of_empty_interval (h : nextOpen k sys i r) (hat : pinAt s k sys r.engage)
    (heq : r.engage = r.release) : upEvent s k sys = .miss r.entry.carrier i :=
  (upEvent_of_nextOpen h).trans ((if_pos hat).trans (if_pos heq))

theorem pinEvent_of_up (h : s.pins[sys].state = .up) : pinEvent s k sys = upEvent s k sys := by
  rw [pinEvent, h]

section Catching

variable {c : Fin 16} {left : Nat} {d : Direction}

theorem pinEvent_of_catching_ended (h : s.pins[sys].state = .catching c left i d)
    (hr : k.runs[i]? = some r) (hend : left ≤ 1 ∨ pinAt s k sys r.release) :
    pinEvent s k sys = .miss c i := by
  have hmiss : (left ≤ 1 || atRelease s k sys i) = true := by
    rw [Bool.or_eq_true, decide_eq_true_iff, atRelease_iff hr]
    exact hend
  simp only [pinEvent, h, hmiss, if_true]

theorem pinEvent_of_catching_on (h : s.pins[sys].state = .catching c left i d)
    (hr : k.runs[i]? = some r) (hleft : 1 < left) (hat : ¬ pinAt s k sys r.release) :
    pinEvent s k sys = .countDown c left i d := by
  have hon : ¬ (left ≤ 1 || atRelease s k sys i) = true := by
    rw [Bool.or_eq_true, decide_eq_true_iff, atRelease_iff hr]
    exact not_or.mpr ⟨hleft.not_ge, hat⟩
  simp only [pinEvent, h]
  exact if_neg hon

/-- R148: the position where a carrier is set down is the release point. -/
theorem pinEvent_of_holding_at (h : s.pins[sys].state = .holding c i d)
    (hr : k.runs[i]? = some r) (hat : pinAt s k sys r.release) :
    pinEvent s k sys = .release c i r.release := by
  have hplace : pinPosition s sys k.direction = r.release := hat
  simp only [pinEvent, h, (atRelease_iff hr).mpr hat, if_true, hplace]

theorem pinEvent_of_holding_on (h : s.pins[sys].state = .holding c i d)
    (hr : k.runs[i]? = some r) (hat : ¬ pinAt s k sys r.release) : pinEvent s k sys = .none := by
  simp only [pinEvent, h]
  exact if_neg (mt (atRelease_iff hr).mp hat)

end Catching

/-- R143: in a course the pin does what the step asks of it. -/
theorem stepPin_eq (h : s.engine.course = some k) :
    stepPin s s sys = doPinEvent s sys (pinEvent s k sys) := by
  rw [stepPin, h]

section Done

variable {c : Fin 16} (h : s.engine.course = some k)

include h

theorem stepPin_of_none (e : pinEvent s k sys = .none) : stepPin s s sys = (s, []) := by
  rw [stepPin_eq h, e, doPinEvent]

theorem stepPin_of_engage (e : pinEvent s k sys = .engage c i) :
    stepPin s s sys =
      (withPin s sys (.catching c s.geometry.catchWindow i k.direction), []) := by
  simp only [stepPin_eq h, e, doPinEvent, h, setPinState_eq_withPin]

theorem stepPin_of_countDown {left : Nat} {d : Direction}
    (e : pinEvent s k sys = .countDown c left i d) :
    stepPin s s sys = (withPin s sys (.catching c (left - 1) i d), []) := by
  rw [stepPin_eq h, e, doPinEvent, setPinState_eq_withPin]

theorem stepPin_of_miss (e : pinEvent s k sys = .miss c i) :
    stepPin s s sys = (withStatus (withPin s sys .up) k i .unfed,
      [⟨.carrierMissed, none, some sys, none, none, some k.tag, c.val⟩]) := by
  rw [stepPin_eq h, e, doPinEvent, missCatch_eq h]

theorem stepPin_of_release {x : Int} (e : pinEvent s k sys = .release c i x) :
    stepPin s s sys =
      (withStatus (withCarrier (withPin s sys .up) c (.resting x)) k i .done, []) := by
  have hcarrier : (withCarrier (withPin s sys .up) c (.resting x)).engine.course = some k := h
  rw [stepPin_eq h, e, doPinEvent, setPinState_eq_withPin, setCarrierState_eq_withCarrier,
    setStatus_eq_withStatus hcarrier]

end Done

end PinEvents

end Sys2Proof.Machine

namespace Sys2Proof.Proofs

open Sys2Proof.Machine

/-- Settles O31: the pin's record and its place decide what the step asks (`pinEvent`), and the step carries
that out. -/
theorem pinAtStep : Obligations.PinAtStep := by
  intro s k sys hcourse missed
  split
  next hup =>
    have hevent : pinEvent s k sys = upEvent s k sys := pinEvent_of_up hup
    exact ⟨fun hnone => stepPin_of_none hcourse (hevent.trans (upEvent_of_no_open hnone)),
      fun i r hnext =>
        ⟨fun hat => stepPin_of_none hcourse (hevent.trans (upEvent_of_not_at hnext hat)),
        fun hat hne => stepPin_of_engage hcourse (hevent.trans (upEvent_of_interval hnext hat hne)),
        fun hat heq =>
          stepPin_of_miss hcourse (hevent.trans (upEvent_of_empty_interval hnext hat heq))⟩⟩
  next c left i d hcatching =>
    exact fun r hr =>
      ⟨fun hend => stepPin_of_miss hcourse (pinEvent_of_catching_ended hcatching hr hend),
      fun hleft hat =>
        stepPin_of_countDown hcourse (pinEvent_of_catching_on hcatching hr hleft hat)⟩
  next c i d hholding =>
    exact fun r hr =>
      ⟨fun hat => stepPin_of_release hcourse (pinEvent_of_holding_at hholding hr hat),
      fun hat => stepPin_of_none hcourse (pinEvent_of_holding_on hholding hr hat)⟩

end Sys2Proof.Proofs

/-! # The carrier requests (chapter 7) -/

namespace Sys2Proof.Machine

/-! ### The tests of the carrier requests (R136, R137, R139, R140) -/

theorem restRange_iff (g : Geometry) (x : Int) :
    g.restRange x = true ↔ ¬ (x < -256 ∨ (g.bedWidth : Int) + 255 < x) := by
  rw [Geometry.restRange, within_eq_true_iff, not_or, Int.not_lt, Int.not_lt]

theorem nearInterval_iff (clearance : Nat) (x a b : Int) :
    nearInterval clearance x a b = true ↔ withinOf clearance x a b := by
  simp only [nearInterval, nearTo, withinOf, Bool.or_eq_true, Bool.and_eq_true, decide_eq_true_iff,
    or_assoc]

/-- R137: the plan of the rail partner is tested before the partner's own position. -/
theorem clearOf_iff (s : State) (c : Fin 16) (x : Int) :
    clearOf s c x = true ↔ ¬ clearanceFails s c x := by
  rw [clearOf, clearanceFails]
  cases namingRun s (partnerOf c) with
  | some r => simp [← nearInterval_iff]
  | none => cases s.carriers[partnerOf c].state <;> simp [nearTo]

theorem namingRun_isSome_iff (s : State) (c : Fin 16) :
    (namingRun s c).isSome = true ↔
      ∃ k, s.engine.course = some k ∧ ∃ r ∈ k.runs, r.entry.carrier = c := by
  rw [namingRun]
  cases s.engine.course <;> simp

/-- R141: the count of the plans that name a carrier is 0 where none does. -/
theorem plansNaming_ne_zero_iff (s : State) (c : Fin 16) :
    plansNaming s c ≠ 0 ↔ (∃ p ∈ s.engine.queue, ∃ e ∈ p.entries, e.carrier = c) ∨
      ∃ k, s.engine.course = some k ∧ ∃ r ∈ k.runs, r.entry.carrier = c := by
  have hqueue : (s.engine.queue.filter fun p => p.namesCarrier c).length = 0 ↔
      ¬ ∃ p ∈ s.engine.queue, ∃ e ∈ p.entries, e.carrier = c := by
    simp [Plan.namesCarrier]
  have hcourse : (namingRun s c).isSome.toNat = 0 ↔ ¬ (namingRun s c).isSome = true := by simp
  rw [plansNaming, ne_eq, Nat.add_eq_zero_iff, hqueue, hcourse, namingRun_isSome_iff,
    ← not_or, not_not]

theorem carrierInUse_iff (s : State) (c : Fin 16) : carrierInUse s c = true ↔ carrierHeld s c := by
  rw [carrierInUse, carrierHeld, Bool.or_eq_true, decide_eq_true_iff, plansNaming_ne_zero_iff]
  refine or_congr ?_ Iff.rfl
  cases s.carriers[c].state <;> simp

/-! ### Install, Place and Remove Carrier (R138, R139, R140) -/

section Requests

variable {s : State} {id yarn : Byte} {position : Half} {c : Fin 16}

theorem carrierRequests_of_no_id (h : 16 ≤ id.toNat) :
    installCarrier id position yarn s = (s, refuse .range) ∧
    placeCarrier id position s = (s, refuse .range) ∧
    removeCarrier id s = (s, refuse .range) := by
  rw [installCarrier, placeCarrier, removeCarrier, idOf_eq_none h]
  exact ⟨rfl, rfl, rfl⟩

/-- R138, R139: what a position is tested for before a carrier rests there; `rested` is the answer when it
passes. -/
def restChecked (s : State) (c : Fin 16) (x : Int) (rested : State × Answer) : State × Answer :=
  if !s.geometry.restRange x then (s, refuse .range)
  else if !clearOf s c x then (s, refuse .overlap)
  else rested

section RestChecked

variable {x : Int} {rested : State × Answer}

theorem restChecked_of_outside (h : x < -256 ∨ (s.geometry.bedWidth : Int) + 255 < x) :
    restChecked s c x rested = (s, refuse .range) := by
  have hrange : s.geometry.restRange x = false :=
    Bool.eq_false_iff.mpr fun hin => (restRange_iff _ x).mp hin h
  simp only [restChecked, hrange, Bool.not_false, if_true]

theorem restChecked_of_clearanceFails
    (h : ¬ (x < -256 ∨ (s.geometry.bedWidth : Int) + 255 < x)) (hfails : clearanceFails s c x) :
    restChecked s c x rested = (s, refuse .overlap) := by
  have hclear : clearOf s c x = false :=
    Bool.eq_false_iff.mpr fun hpasses => (clearOf_iff s c x).mp hpasses hfails
  simp only [restChecked, (restRange_iff _ x).mpr h, hclear, Bool.not_true, Bool.not_false,
    Bool.false_eq_true, if_false, if_true]

theorem restChecked_of_clear (h : ¬ (x < -256 ∨ (s.geometry.bedWidth : Int) + 255 < x))
    (hpasses : ¬ clearanceFails s c x) : restChecked s c x rested = rested := by
  simp only [restChecked, (restRange_iff _ x).mpr h, (clearOf_iff s c x).mpr hpasses, Bool.not_true,
    Bool.false_eq_true, if_false]

end RestChecked

variable (hid : id.toNat = c.val)

include hid

theorem installCarrier_of_present (hstate : s.carriers[c].state ≠ .absent) :
    installCarrier id position yarn s = (s, refuse .inUse) := by
  simp only [installCarrier, idOf_eq_some hid]
  exact if_pos hstate

/-- R138: an absent carrier is installed where the position passes. -/
theorem installCarrier_of_absent (hstate : s.carriers[c].state = .absent) :
    installCarrier id position yarn s = restChecked s c position.toInt
      (s.withCarriers (s.carriers.set c ⟨.resting position.toInt, yarn⟩), okWith []) := by
  simp only [installCarrier, idOf_eq_some hid]
  exact if_neg (not_not.mpr hstate)

theorem placeCarrier_of_absent (hstate : s.carriers[c].state = .absent) :
    placeCarrier id position s = (s, refuse .noRecord) := by
  simp only [placeCarrier, idOf_eq_some hid]
  exact if_pos hstate

theorem placeCarrier_of_held (hstate : s.carriers[c].state ≠ .absent) (hheld : carrierHeld s c) :
    placeCarrier id position s = (s, refuse .inUse) := by
  simp only [placeCarrier, idOf_eq_some hid]
  exact (if_neg hstate).trans (if_pos ((carrierInUse_iff s c).mpr hheld))

/-- R139: a free carrier is placed where the position passes, and keeps its yarn code. -/
theorem placeCarrier_of_free (hstate : s.carriers[c].state ≠ .absent) (hfree : ¬ carrierHeld s c) :
    placeCarrier id position s = restChecked s c position.toInt
      (withCarrier s c (.resting position.toInt), okWith []) := by
  simp only [placeCarrier, idOf_eq_some hid]
  exact (if_neg hstate).trans (if_neg (mt (carrierInUse_iff s c).mp hfree))

theorem removeCarrier_of_absent (hstate : s.carriers[c].state = .absent) :
    removeCarrier id s = (s, refuse .noRecord) := by
  simp only [removeCarrier, idOf_eq_some hid]
  exact if_pos hstate

theorem removeCarrier_of_held (hstate : s.carriers[c].state ≠ .absent) (hheld : carrierHeld s c) :
    removeCarrier id s = (s, refuse .inUse) := by
  simp only [removeCarrier, idOf_eq_some hid]
  exact (if_neg hstate).trans (if_pos ((carrierInUse_iff s c).mpr hheld))

/-- R140: a free carrier becomes ABSENT with the yarn code 0. -/
theorem removeCarrier_of_free (hstate : s.carriers[c].state ≠ .absent)
    (hfree : ¬ carrierHeld s c) :
    removeCarrier id s = (s.withCarriers (s.carriers.set c ⟨.absent, 0⟩), okWith []) := by
  simp only [removeCarrier, idOf_eq_some hid]
  exact (if_neg hstate).trans (if_neg (mt (carrierInUse_iff s c).mp hfree))

end Requests

section Answers

variable {s : State} {tag id yarn : Byte} {position : Half} {code : ResultCode}

/-- R138, R194: what Install Carrier refuses leaves the part as it was. -/
theorem exec_installCarrier_refused (h : takesRequests s)
    (e : installCarrier id position yarn (openFrame s) = (openFrame s, refuse code)) :
    exec (.installCarrier tag id position yarn) s = .next (refusedWith s tag code) :=
  congrArg Host.Outcome.next (serve_refused h e)

/-- R139, R194: what Place Carrier refuses leaves the part as it was. -/
theorem exec_placeCarrier_refused (h : takesRequests s)
    (e : placeCarrier id position (openFrame s) = (openFrame s, refuse code)) :
    exec (.placeCarrier tag id position) s = .next (refusedWith s tag code) :=
  congrArg Host.Outcome.next (serve_refused h e)

/-- R140, R194: what Remove Carrier refuses leaves the part as it was. -/
theorem exec_removeCarrier_refused (h : takesRequests s)
    (e : removeCarrier id (openFrame s) = (openFrame s, refuse code)) :
    exec (.removeCarrier tag id) s = .next (refusedWith s tag code) :=
  congrArg Host.Outcome.next (serve_refused h e)

end Answers

end Sys2Proof.Machine

namespace Sys2Proof.Proofs

open Sys2Proof.Machine

/-- Settles O45: each check is one branch of the block's answer in the order of the rules; Install and Place
share the two tests of the position (`restChecked`), Place and Remove the test of a carrier in use. -/
theorem carrierRequestsTaken : Obligations.CarrierRequestsTaken := by
  intro tag id yarn position s htakes x install place remove outside
  refine ⟨fun hno => ?unknown, fun c hid =>
    ⟨fun hpresent => exec_installCarrier_refused htakes (installCarrier_of_present hid hpresent),
      fun habsent => ?absent, fun hpresent =>
        ⟨fun hheld => ⟨exec_placeCarrier_refused htakes (placeCarrier_of_held hid hpresent hheld),
          exec_removeCarrier_refused htakes (removeCarrier_of_held hid hpresent hheld)⟩,
        fun hfree => ?free⟩⟩⟩
  case unknown =>
    obtain ⟨hinstall, hplace, hremove⟩ := carrierRequests_of_no_id (s := openFrame s) hno
    exact ⟨exec_installCarrier_refused htakes hinstall, exec_placeCarrier_refused htakes hplace,
      exec_removeCarrier_refused htakes hremove⟩
  case absent =>
    have hinstall := installCarrier_of_absent (s := openFrame s) (position := position)
      (yarn := yarn) hid habsent
    refine ⟨exec_placeCarrier_refused htakes (placeCarrier_of_absent hid habsent),
      exec_removeCarrier_refused htakes (removeCarrier_of_absent hid habsent),
      fun hout => exec_installCarrier_refused htakes
        (hinstall.trans (restChecked_of_outside hout)), fun hin =>
      ⟨fun hfails => exec_installCarrier_refused htakes
        (hinstall.trans (restChecked_of_clearanceFails hin hfails)), fun hclear => ?_⟩⟩
    exact congrArg Host.Outcome.next
      (serve_answered htakes (hinstall.trans (restChecked_of_clear hin hclear)))
  case free =>
    have hplace := placeCarrier_of_free (s := openFrame s) (position := position) hid hpresent hfree
    refine ⟨congrArg Host.Outcome.next
        (serve_answered htakes (removeCarrier_of_free (s := openFrame s) hid hpresent hfree)),
      fun hout => exec_placeCarrier_refused htakes (hplace.trans (restChecked_of_outside hout)),
      fun hin => ⟨fun hfails => exec_placeCarrier_refused htakes
        (hplace.trans (restChecked_of_clearanceFails hin hfails)), fun hclear => ?_⟩⟩
    exact congrArg Host.Outcome.next
      (serve_answered htakes (hplace.trans (restChecked_of_clear hin hclear)))

end Sys2Proof.Proofs

/-! # Clear Fault and Set Policy (chapter 8): the records counted, the flags checked and what each answers -/

namespace Sys2Proof.Machine

/-! ### Clear Fault (R170) -/

/-- R170: the records present, counted over the places of the record table. -/
theorem length_filter_toList {α : Type} {n : Nat} (v : Vector α n) (p : α → Bool) :
    (v.toList.filter p).length = (List.finRange n).countP (fun i => p v[i]) := by
  have hlist : v.toList = (List.finRange n).map (fun i => v[i]) := by
    rw [← List.ofFn_eq_map, ← Vector.toList_ofFn]
    exact congrArg Vector.toList Vector.ofFn_getElem.symm
  rw [← List.countP_eq_length_filter, hlist, List.countP_map]
  rfl

section ClearFault

variable {s : State} {kind : Byte}

/-- R196: the value that names every kind is 255. -/
theorem eq_allKinds_iff : kind = allKinds ↔ kind.toNat = 255 := BitVec.toNat_inj.symm

theorem clearFault_of_allKinds (h : kind.toNat = 255) :
    clearFault kind s = (s.withFaults { s.faults with records := Vector.replicate 11 none },
      okWith [byteN ((List.finRange 11).countP (fun i => s.faults.records[i].isSome))]) := by
  rw [clearFault, if_pos (eq_allKinds_iff.mpr h), length_filter_toList]

theorem clearFault_of_kind {i : Fin 11} (h : kind.toNat = i.val) :
    clearFault kind s = (s.withFaults { s.faults with records := s.faults.records.set i none },
      okWith [byteFlag s.faults.records[i].isSome]) := by
  have hone : kind ≠ allKinds := fun hall => by
    have hvalue := eq_allKinds_iff.mp hall
    omega
  simp only [clearFault, if_neg hone, idOf_eq_some h]

theorem clearFault_of_no_kind (h : 11 ≤ kind.toNat) (hone : kind.toNat ≠ 255) :
    clearFault kind s = (s, refuse .range) := by
  rw [clearFault, if_neg (mt eq_allKinds_iff.mp hone), idOf_eq_none h]

end ClearFault

/-! ### Set Policy (R164) -/

/-- R195: a flag byte is 0 or 1. -/
theorem flagOf_isSome_iff (b : Byte) : (flagOf b).isSome = true ↔ b.toNat ≤ 1 := by
  have hzero : b = 0 ↔ b.toNat = 0 := BitVec.toNat_inj.symm
  have hone : b = 1 ↔ b.toNat = 1 := BitVec.toNat_inj.symm
  simp only [flagOf, hzero, hone]
  split_ifs with h0 h1
  · simp [h0]
  · simp [h1]
  · exact ⟨nofun, fun h => by omega⟩

/-- R164: the check of a request's flag bytes. -/
theorem flags_all_iff {n : Nat} (v : Vector Byte n) :
    v.toList.all (fun b => (flagOf b).isSome) = true ↔ ∀ i : Fin n, v[i].toNat ≤ 1 := by
  simp only [List.all_eq_true, Vector.mem_toList_iff, flagOf_isSome_iff,
    Vector.forall_mem_iff_forall_getElem, Fin.forall_iff, Fin.getElem_fin]

section SetPolicy

variable {s : State} {flags : Vector Byte 20}

theorem setPolicy_of_flag_out_of_range (h : ∃ i : Fin 20, 1 < flags[i].toNat) :
    setPolicy flags s = (s, refuse .range) := by
  obtain ⟨i, hi⟩ := h
  exact if_neg fun hall => Nat.not_le.mpr hi ((flags_all_iff flags).mp hall i)

theorem setPolicy_of_flags (h : ∀ i : Fin 20, flags[i].toNat ≤ 1) :
    setPolicy flags s = (s.withFaults { s.faults with policy := policyOf flags }, okWith []) :=
  if_pos ((flags_all_iff flags).mpr h)

/-- R164, R196: the first six flags enable the stops. -/
theorem policyOf_stopEnable (flags : Vector Byte 20) (i : Fin 6) :
    (policyOf flags).stopEnable[i] = decide (flags[i.val] = 1) :=
  Vector.getElem_ofFn i.isLt

/-- R164, R196: the next eleven flags enable the fault attention. -/
theorem policyOf_faultAttention (flags : Vector Byte 20) (i : Fin 11) :
    (policyOf flags).faultAttention[i] = decide (flags[6 + i.val] = 1) :=
  Vector.getElem_ofFn i.isLt

/-- R164, R196: the last three flags enable the event attention. -/
theorem policyOf_eventAttention (flags : Vector Byte 20) (i : Fin 3) :
    (policyOf flags).eventAttention[i] = decide (flags[17 + i.val] = 1) :=
  Vector.getElem_ofFn i.isLt

end SetPolicy

end Sys2Proof.Machine

namespace Sys2Proof.Proofs

open Sys2Proof.Machine

/-- Settles O15: every kind, one kind and no kind are the branches of Clear Fault's answer, and the check of the
twenty flags (`flags_all_iff`) chooses the branch of Set Policy's, which installs `policyOf flags`. -/
theorem faultRequestsTaken : Obligations.FaultRequestsTaken := by
  refine ⟨fun tag kind s htakes => ⟨fun hall => ?all, fun i hkind => ?one, fun hno hone => ?unknown⟩,
    fun tag flags s htakes => ⟨fun hout => ?outOfRange, fun hflags => ⟨policyOf flags, ?replaced,
      policyOf_stopEnable flags, policyOf_faultAttention flags, policyOf_eventAttention flags⟩⟩⟩
  case all =>
    exact congrArg Host.Outcome.next
      (serve_answered htakes (clearFault_of_allKinds (s := openFrame s) hall))
  case one =>
    exact congrArg Host.Outcome.next
      (serve_answered htakes (clearFault_of_kind (s := openFrame s) hkind))
  case unknown =>
    exact congrArg Host.Outcome.next (serve_refused htakes (clearFault_of_no_kind hno hone))
  case outOfRange =>
    exact congrArg Host.Outcome.next (serve_refused htakes (setPolicy_of_flag_out_of_range hout))
  case replaced =>
    exact congrArg Host.Outcome.next
      (serve_answered htakes (setPolicy_of_flags (s := openFrame s) hflags))

end Sys2Proof.Proofs
